-- ==== Sys2Proof/Word.lean ====
section
/-! DEFINITION. The byte and the two-byte field of the wire formats (spec/12, "Field encodings"). -/

namespace Sys2Proof

/-- One byte of a host message, a reply, a frame or a report. -/
abbrev Byte := BitVec 8

/-- A two-byte field, sent most significant byte first (spec/12). -/
abbrev Half := BitVec 16

end Sys2Proof
end

