-- ==== Sys2Proof/Config.lean ====
section
/-! DEFINITION. Limits the spec fixes for the part, and the free values: constants with no body, so that no proof can see
what they are. -/

namespace Sys2Proof.Config

/-- The largest board minute (R4). -/
def limitM : Nat := 1048575

/-- Minutes in a day. -/
def dayMinutes : Nat := 1440

/-- Places in the Showing Table (R34). -/
def showingPlaces : Nat := 192

/-- Places in the hold table (R67). -/
def holdPlaces : Nat := 96

/-- Entries in one bank of the seat journal (R79). -/
def bankPlaces : Nat := 128

/-- Places in the notice table (R100). -/
def noticePlaces : Nat := 32

/-- Entries in one carousel's ring (R118). -/
def ringPlaces : Nat := 32

/-- Records in one port's event queue (R188). -/
def queuePlaces : Nat := 64

/-- FREE VALUE. The choice made where the spec leaves an order open (R40, R60, R70, R74, R107, R184). The argument is the
counter State.choice, so that no two choices are tied to one another. Log 9. -/
opaque pick : Nat → Nat

/-- FREE VALUE. The effective rows that QUERY PANEL reports for a panel whose head was never identified: R143 computes them
from the head rows, which are then none. The argument is the profile's rows per page. Log 18. -/
opaque effectiveRows : Nat → Nat

/-- FREE VALUE. The state code that a DELAY replies where its judging frees the record at the same arrival: R54 lists the state, and a
freed record has none. The argument is the counter State.choice. Log 35. -/
opaque freedState : Nat → Nat

end Sys2Proof.Config
end

