-- ==== Sys2Proof/Syntax.lean ====
section
/-! DEFINITION. The commands of the Ormapel 624: one constructor of Instr for each row of spec/opcode_table.json.

A request's fields have the widths of the wire (spec/12 R191, R193), so that every value a gateway can send is an operand:
what a rule clamps or refuses is the meaning's business. Log 3. -/

namespace Sys2Proof

/-- A host port (R173). -/
inductive Port where
  | a | b | c
  deriving DecidableEq, Repr

/-- A lobby link. The link p serves the panel numbered p + 1, so that the twelve links are the panels 1 to 12. -/
abbrev Link := Fin 12

/-- The levels of the two strap pins of each port, sampled at a reset (R173): the pin RS1 is bit 1. -/
structure Straps where
  a : BitVec 2
  b : BitVec 2
  c : BitVec 2
  deriving DecidableEq, Repr

/-- The release of chip-select that ends a transaction (R174, R175): its port, and the number of whole bytes clocked beyond
the message, which collect a long reply. -/
structure Txn where
  port : Port
  surplus : Nat
  deriving DecidableEq, Repr

/-- A relative time: the relative day r and the minute m of the business day (R47). -/
structure RelTime where
  day : Byte
  minute : Half
  deriving DecidableEq, Repr

/-- The optional fields of SET BOARD by their presence bits (R191), and the three presence bits that have no field. -/
structure BoardFields where
  h0 : Option Byte
  openMin : Option Half
  closeMin : Option Half
  lead : Option Byte
  late : Option Byte
  linger : Option Byte
  f1 : Option Half
  f2 : Option Half
  w : Option Byte
  k : Option Byte
  dc : Option Half
  watch : Option Half
  frame : Option Half
  spare : BitVec 3
  deriving DecidableEq, Repr

/-- The fields of PUBLISH (R48, R191). -/
structure PublishFields where
  id : Half
  auditorium : Byte
  feature : Byte
  format : Byte
  start : RelTime
  runtime : Option Half
  capacity : Option Half
  delay : Option Byte
  salesOpen : Option RelTime
  spare : BitVec 4
  deriving DecidableEq, Repr

/-- The fields of MOVE (R51, R191). -/
structure MoveFields where
  id : Half
  auditorium : Option Byte
  start : Option RelTime
  capacity : Option Half
  salesOpen : Option RelTime
  spare : BitVec 4
  deriving DecidableEq, Repr

/-- The fields of POST NOTICE (R104, R191). The scope is a panel set as sent: bit p - 1 stands for panel p. -/
structure NoticeFields where
  id : Byte
  cls : Byte
  selector : Byte
  value : Half
  scope : Option Half
  link : Option Half
  activation : Option RelTime
  expiry : Option RelTime
  flash : Option (Byte × Byte)
  spare : BitVec 3
  deriving DecidableEq, Repr

/-- The fields of PUT ENTRY (R121, R191). -/
structure EntryFields where
  carousel : Byte
  placement : Byte
  position : Byte
  primary : Half
  length : Half
  alternate : Option Half
  feature : Option Byte
  daypart : Option (Half × Half)
  spare : BitVec 5
  deriving DecidableEq, Repr

/-- The fields of SET CAROUSEL (R123, R191). -/
structure CarouselFields where
  carousel : Byte
  mode : Option Byte
  fallback : Option Half
  length : Option Half
  horizon : Option Half
  spare : BitVec 4
  deriving DecidableEq, Repr

/-- The fields of SET PANEL (R138). The auditorium set as sent: bit a - 1 stands for auditorium a. -/
structure PanelFields where
  panel : Byte
  enabled : Byte
  layout : Byte
  auditoriums : BitVec 24
  featureA : Byte
  featureB : Byte
  rows : Byte
  pageDwell : Byte
  noticeDwell : Byte
  carousel : Byte
  alwaysLit : Byte
  deriving DecidableEq, Repr

/-- The date and time that SET TIME carries (R7). -/
structure TimeFields where
  year : Half
  month : Byte
  day : Byte
  hour : Byte
  minute : Byte
  second : Byte
  deriving DecidableEq, Repr

/-- A command. The rule that a constructor's docstring names is the row's own. -/
inductive Instr where
  /-- First application of power (R15); the straps are sampled. -/
  | powerOnReset (straps : Straps)
  /-- Assertion of RSTN with the backup domain powered (R16); the straps are sampled. -/
  | pinReset (straps : Straps)
  /-- Release of a power-on or pin reset (R190). -/
  | resetRelease
  /-- The calendar oscillator's once-a-second event (R2). -/
  | secondEvent
  /-- The second event at which a dwell count of the panel reaches 0 (R143, R144). -/
  | dwellExpiry (p : Link)
  /-- The second event at which the hold named by the tag expires (R70). -/
  | holdExpiry (tag : Half)
  /-- The second event at which the sales watch runs out (R77). -/
  | salesStale
  /-- The second event that carries into a new minute while RUNNING (R3). -/
  | minuteEvent
  /-- The second event that carries from 23:59:59 into the next date (R1). -/
  | midnightEvent
  /-- A 100 ms flash tick (R113). -/
  | flashTick
  /-- A link's frame time (R158). -/
  | frameTime (p : Link)
  /-- The frame time at which a LOST link's frame count reaches 8 (R158). -/
  | lostIdentify (p : Link)
  /-- The reply window runs out without a complete report (R159). -/
  | replyWindowExpiry (p : Link)
  /-- The bytes of a report arrive on the link (R160, R194). -/
  | headReport (p : Link) (bytes : List Byte)
  /-- A length field outside 6 to 15 arrives (R194). -/
  | reportLengthFailure (p : Link) (length : Half)
  /-- The core clock reaches the zone deadline (R150). -/
  | zoneDeadline (p : Link)
  /-- Chip-select is released with no whole byte received (R175). -/
  | emptyTransaction (port : Port)
  /-- Chip-select is released with bytes that make no request (R175, R192). -/
  | malformedMessage (port : Port) (bytes : List Byte)
  /-- NOTHING (R178). -/
  | nothing (t : Txn)
  /-- READ EVENTS with a maximum count (R189). -/
  | readEvents (t : Txn) (count : Byte)
  /-- SET FILTER with its pairs of kind and subject number (R187). -/
  | setFilter (t : Txn) (pairs : List (Byte × Half))
  /-- QUERY BOARD (R182). -/
  | queryBoard (t : Txn)
  /-- QUERY SHOWING (R56). -/
  | queryShowing (t : Txn) (id : Half)
  /-- QUERY HOLD (R76). -/
  | queryHold (t : Txn) (tag : Half)
  /-- QUERY NOTICE (R116). -/
  | queryNotice (t : Txn) (id : Byte)
  /-- QUERY CAROUSEL (R134). -/
  | queryCarousel (t : Txn) (carousel : Byte) (start : Byte)
  /-- QUERY PANEL (R171). -/
  | queryPanel (t : Txn) (panel : Byte)
  /-- SET TIME (R7). -/
  | setTime (t : Txn) (f : TimeFields)
  /-- WAKE (R12). -/
  | wake (t : Txn)
  /-- SET BOARD (R180). -/
  | setBoard (t : Txn) (f : BoardFields)
  /-- BOARD CLEAR (R181). -/
  | boardClear (t : Txn)
  /-- PUT AUDITORIUM (R19). -/
  | putAuditorium (t : Txn) (auditorium : Byte) (name : Half) (capacity : Half)
  /-- DROP AUDITORIUM (R21). -/
  | dropAuditorium (t : Txn) (auditorium : Byte)
  /-- SUSPEND AUDITORIUM (R22). -/
  | suspendAuditorium (t : Txn) (auditorium : Byte)
  /-- RESUME AUDITORIUM (R22). -/
  | resumeAuditorium (t : Txn) (auditorium : Byte)
  /-- PUT FEATURE (R24). -/
  | putFeature (t : Txn) (feature : Byte) (title : Half) (rating : Byte) (runtime : Half)
  /-- DROP FEATURE (R26). -/
  | dropFeature (t : Txn) (feature : Byte)
  /-- PUT TEXT (R29). -/
  | putText (t : Txn) (id : Half) (bytes : List Byte)
  /-- DROP TEXT (R31). -/
  | dropText (t : Txn) (id : Half)
  /-- PUBLISH (R48). -/
  | publish (t : Txn) (f : PublishFields)
  /-- MOVE (R51). -/
  | move (t : Txn) (f : MoveFields)
  /-- DELAY (R53). -/
  | delay (t : Txn) (id : Half) (minutes : Byte)
  /-- SET CAPACITY (R55). -/
  | setCapacity (t : Txn) (id : Half) (capacity : Half)
  /-- CANCEL (R45). -/
  | cancel (t : Txn) (id : Half)
  /-- SELL (R64). -/
  | sell (t : Txn) (id : Half) (count : Byte)
  /-- REFUND (R65). -/
  | refund (t : Txn) (id : Half) (count : Byte)
  /-- SNAPSHOT (R66). -/
  | snapshot (t : Txn) (id : Half) (sold : Half)
  /-- HOLD (R69). -/
  | hold (t : Txn) (tag : Half) (id : Half) (count : Byte) (lifetime : Half)
  /-- CONFIRM (R71). -/
  | confirm (t : Txn) (tag : Half) (count : Byte)
  /-- RELEASE (R73). -/
  | release (t : Txn) (tag : Half)
  /-- READ JOURNAL (R82). -/
  | readJournal (t : Txn) (start : Byte) (count : Byte)
  /-- SWAP JOURNAL (R83). -/
  | swapJournal (t : Txn)
  /-- POST NOTICE (R104). -/
  | postNotice (t : Txn) (f : NoticeFields)
  /-- WITHDRAW NOTICE (R109). -/
  | withdrawNotice (t : Txn) (id : Byte)
  /-- PUT ENTRY (R121). -/
  | putEntry (t : Txn) (f : EntryFields)
  /-- DROP ENTRY (R122). -/
  | dropEntry (t : Txn) (carousel : Byte) (position : Byte)
  /-- SET CAROUSEL (R123). -/
  | setCarousel (t : Txn) (f : CarouselFields)
  /-- SET PANEL (R138). -/
  | setPanel (t : Txn) (f : PanelFields)
  /-- Assertion of a port's chip-select (R173). -/
  | chipSelectAssertion (port : Port)
  deriving DecidableEq, Repr

end Sys2Proof
end

