-- ==== Sys2Proof/Decode.lean ====
section
/-! DEFINITION. The wire form of a host message: what the bytes of a transaction spell (R175, R191, R192), and the bytes of a
request, written from the same tables. The opcode table gives no row any bits, so decodeTableWord answers none. -/

namespace Sys2Proof

/-- The command a word spells by the opcode table's bits. The table gives no row any bits. Log 28. -/
def decodeTableWord (_nbits _w : Nat) : Option Instr := none

namespace Wire

/-- Two bytes, the most significant first, as one field (spec/12). -/
def half (hi lo : Byte) : Half := hi ++ lo

/-- The most significant byte of a two-byte field. -/
def hiByte (x : Half) : Byte := x.extractLsb' 8 8

/-- The least significant byte of a two-byte field. -/
def loByte (x : Half) : Byte := x.extractLsb' 0 8

/-- A two-byte field as sent. -/
def halfBytes (x : Half) : List Byte := [hiByte x, loByte x]

/-- A relative time as sent: r, then m (spec/12). -/
def relBytes (r : RelTime) : List Byte := r.day :: halfBytes r.minute

/-- An optional field of one byte: it is read where its presence bit is set (R191). -/
def optByte (present : Bool) (b : List Byte) : Option (Option Byte × List Byte) :=
  match present, b with
  | false, b => some (none, b)
  | true, x :: r => some (some x, r)
  | true, [] => none

/-- An optional field of two bytes (R191). -/
def optHalf (present : Bool) (b : List Byte) : Option (Option Half × List Byte) :=
  match present, b with
  | false, b => some (none, b)
  | true, x :: y :: r => some (some (half x y), r)
  | true, _ => none

/-- An optional relative time of three bytes (R191). -/
def optRel (present : Bool) (b : List Byte) : Option (Option RelTime × List Byte) :=
  match present, b with
  | false, b => some (none, b)
  | true, d :: x :: y :: r => some (some { day := d, minute := half x y }, r)
  | true, _ => none

/-- The flash of POST NOTICE: one optional field of two bytes, on-hold then off-hold (R191). -/
def optFlash (present : Bool) (b : List Byte) : Option (Option (Byte × Byte) × List Byte) :=
  match present, b with
  | false, b => some (none, b)
  | true, x :: y :: r => some (some (x, y), r)
  | true, _ => none

/-- The daypart window of PUT ENTRY: one optional field of four bytes, from minute then to minute (R191). -/
def optWindow (present : Bool) (b : List Byte) : Option (Option (Half × Half) × List Byte) :=
  match present, b with
  | false, b => some (none, b)
  | true, x :: y :: z :: w :: r => some (some (half x y, half z w), r)
  | true, _ => none

/-- A value where nothing is left of the message: the length the kind requires is met exactly (R192). -/
def whole {α : Type} (v : α) (rest : List Byte) : Option α :=
  match rest with
  | [] => some v
  | _ :: _ => none

/-- n pairs of kind and subject number (SET FILTER). -/
def pairs : Nat → List Byte → Option (List (Byte × Half))
  | 0, [] => some []
  | 0, _ :: _ => none
  | n + 1, k :: x :: y :: r => (pairs n r).map (fun l => (k, half x y) :: l)
  | _ + 1, _ => none

def readBoard (b : List Byte) : Option BoardFields :=
  match b with
  | hi :: lo :: r =>
    let p := half hi lo
    do
      let (h0, r) ← optByte (p.getLsbD 0) r
      let (openMin, r) ← optHalf (p.getLsbD 1) r
      let (closeMin, r) ← optHalf (p.getLsbD 2) r
      let (lead, r) ← optByte (p.getLsbD 3) r
      let (late, r) ← optByte (p.getLsbD 4) r
      let (linger, r) ← optByte (p.getLsbD 5) r
      let (f1, r) ← optHalf (p.getLsbD 6) r
      let (f2, r) ← optHalf (p.getLsbD 7) r
      let (w, r) ← optByte (p.getLsbD 8) r
      let (k, r) ← optByte (p.getLsbD 9) r
      let (dc, r) ← optHalf (p.getLsbD 10) r
      let (watch, r) ← optHalf (p.getLsbD 11) r
      let (frame, r) ← optHalf (p.getLsbD 12) r
      whole { h0, openMin, closeMin, lead, late, linger, f1, f2, w, k, dc, watch, frame, spare := p.extractLsb' 13 3 } r
  | _ => none

def readPublish (b : List Byte) : Option PublishFields :=
  match b with
  | i :: j :: auditorium :: feature :: format :: d :: x :: y :: p :: r => do
    let (runtime, r) ← optHalf (p.getLsbD 0) r
    let (capacity, r) ← optHalf (p.getLsbD 1) r
    let (delay, r) ← optByte (p.getLsbD 2) r
    let (salesOpen, r) ← optRel (p.getLsbD 3) r
    whole { id := half i j, auditorium, feature, format, start := { day := d, minute := half x y },
            runtime, capacity, delay, salesOpen, spare := p.extractLsb' 4 4 } r
  | _ => none

def readMove (b : List Byte) : Option MoveFields :=
  match b with
  | i :: j :: p :: r => do
    let (auditorium, r) ← optByte (p.getLsbD 0) r
    let (start, r) ← optRel (p.getLsbD 1) r
    let (capacity, r) ← optHalf (p.getLsbD 2) r
    let (salesOpen, r) ← optRel (p.getLsbD 3) r
    whole { id := half i j, auditorium, start, capacity, salesOpen, spare := p.extractLsb' 4 4 } r
  | _ => none

def readNotice (b : List Byte) : Option NoticeFields :=
  match b with
  | id :: cls :: selector :: x :: y :: p :: r => do
    let (scope, r) ← optHalf (p.getLsbD 0) r
    let (link, r) ← optHalf (p.getLsbD 1) r
    let (activation, r) ← optRel (p.getLsbD 2) r
    let (expiry, r) ← optRel (p.getLsbD 3) r
    let (flash, r) ← optFlash (p.getLsbD 4) r
    whole { id, cls, selector, value := half x y, scope, link, activation, expiry, flash, spare := p.extractLsb' 5 3 } r
  | _ => none

def readEntry (b : List Byte) : Option EntryFields :=
  match b with
  | carousel :: placement :: position :: x :: y :: u :: v :: p :: r => do
    let (alternate, r) ← optHalf (p.getLsbD 0) r
    let (feature, r) ← optByte (p.getLsbD 1) r
    let (daypart, r) ← optWindow (p.getLsbD 2) r
    whole { carousel, placement, position, primary := half x y, length := half u v,
            alternate, feature, daypart, spare := p.extractLsb' 3 5 } r
  | _ => none

def readCarousel (b : List Byte) : Option CarouselFields :=
  match b with
  | carousel :: p :: r => do
    let (mode, r) ← optByte (p.getLsbD 0) r
    let (fallback, r) ← optHalf (p.getLsbD 1) r
    let (length, r) ← optHalf (p.getLsbD 2) r
    let (horizon, r) ← optHalf (p.getLsbD 3) r
    whole { carousel, mode, fallback, length, horizon, spare := p.extractLsb' 4 4 } r
  | _ => none

def readPanel (b : List Byte) : Option PanelFields :=
  match b with
  | [panel, enabled, layout, s2, s1, s0, featureA, featureB, rows, pageDwell, noticeDwell, carousel, alwaysLit] =>
    some { panel, enabled, layout, auditoriums := s2 ++ s1 ++ s0, featureA, featureB, rows, pageDwell, noticeDwell,
           carousel, alwaysLit }
  | _ => none

def readTime (b : List Byte) : Option TimeFields :=
  match b with
  | [x, y, month, day, hour, minute, second] => some { year := half x y, month, day, hour, minute, second }
  | _ => none

/-- A request whose one field is a byte. -/
def oneByte (f : Byte → Instr) (b : List Byte) : Option Instr :=
  match b with
  | [x] => some (f x)
  | _ => none

/-- A request whose fields are two bytes. -/
def twoBytes (f : Byte → Byte → Instr) (b : List Byte) : Option Instr :=
  match b with
  | [x, y] => some (f x y)
  | _ => none

/-- A request whose one field is two bytes wide. -/
def oneHalf (f : Half → Instr) (b : List Byte) : Option Instr :=
  match b with
  | [x, y] => some (f (half x y))
  | _ => none

/-- A request of a two-byte field and a byte. -/
def halfByte (f : Half → Byte → Instr) (b : List Byte) : Option Instr :=
  match b with
  | [x, y, z] => some (f (half x y) z)
  | _ => none

/-- A request of two two-byte fields. -/
def twoHalves (f : Half → Half → Instr) (b : List Byte) : Option Instr :=
  match b with
  | [x, y, z, w] => some (f (half x y) (half z w))
  | _ => none

/-- The request of a kind code with the fields after the kind byte (the table of spec/12 and R191). None where the length
disagrees with the kind or the kind is unknown (R192). -/
def readFields (t : Txn) (kind : Nat) (b : List Byte) : Option Instr :=
  match kind with
  | 1 => whole (.nothing t) b
  | 2 => oneByte (.readEvents t) b
  | 3 =>
    match b with
    | n :: r => (pairs n.toNat r).map (.setFilter t)
    | [] => none
  | 4 => whole (.queryBoard t) b
  | 5 => oneHalf (.queryShowing t) b
  | 6 => oneHalf (.queryHold t) b
  | 7 => oneByte (.queryNotice t) b
  | 8 => twoBytes (.queryCarousel t) b
  | 9 => oneByte (.queryPanel t) b
  | 10 => (readTime b).map (.setTime t)
  | 11 => whole (.wake t) b
  | 12 => (readBoard b).map (.setBoard t)
  | 13 => whole (.boardClear t) b
  | 16 =>
    match b with
    | [x, y, z, u, v] => some (.putAuditorium t x (half y z) (half u v))
    | _ => none
  | 17 => oneByte (.dropAuditorium t) b
  | 18 => oneByte (.suspendAuditorium t) b
  | 19 => oneByte (.resumeAuditorium t) b
  | 20 =>
    match b with
    | [x, y, z, r, u, v] => some (.putFeature t x (half y z) r (half u v))
    | _ => none
  | 21 => oneByte (.dropFeature t) b
  | 22 =>
    match b with
    | x :: y :: n :: r => if r.length = n.toNat then some (.putText t (half x y) r) else none
    | _ => none
  | 23 => oneHalf (.dropText t) b
  | 32 => (readPublish b).map (.publish t)
  | 33 => (readMove b).map (.move t)
  | 34 => halfByte (.delay t) b
  | 35 => twoHalves (.setCapacity t) b
  | 36 => oneHalf (.cancel t) b
  | 48 => halfByte (.sell t) b
  | 49 => halfByte (.refund t) b
  | 50 => twoHalves (.snapshot t) b
  | 51 =>
    match b with
    | [x, y, i, j, n, u, v] => some (.hold t (half x y) (half i j) n (half u v))
    | _ => none
  | 52 => halfByte (.confirm t) b
  | 53 => oneHalf (.release t) b
  | 54 => twoBytes (.readJournal t) b
  | 55 => whole (.swapJournal t) b
  | 64 => (readNotice b).map (.postNotice t)
  | 65 => oneByte (.withdrawNotice t) b
  | 80 => (readEntry b).map (.putEntry t)
  | 81 => twoBytes (.dropEntry t) b
  | 82 => (readCarousel b).map (.setCarousel t)
  | 96 => (readPanel b).map (.setPanel t)
  | _ => none

/-- The request that the whole bytes received in a transaction spell, if they spell one (R175, R192). The length byte counts
the whole message; bytes beyond it are the surplus. -/
def readRequest (port : Port) (bytes : List Byte) : Option Instr :=
  match bytes with
  | len :: kind :: rest =>
    if 2 ≤ len.toNat ∧ len.toNat ≤ bytes.length then
      readFields { port, surplus := bytes.length - len.toNat } kind.toNat (rest.take (len.toNat - 2))
    else none
  | _ => none

/-- The command that the release of a port's chip-select makes of the whole bytes received (R175). -/
def readTransaction (port : Port) (bytes : List Byte) : Instr :=
  match bytes with
  | [] => .emptyTransaction port
  | _ :: _ => (readRequest port bytes).getD (.malformedMessage port bytes)

/-- The presence bit of an optional field. -/
def bit {α : Type} (o : Option α) : BitVec 1 := BitVec.ofBool o.isSome

/-- The bytes of an optional field: none where it is absent (R191). -/
def optBytes {α : Type} (f : α → List Byte) (o : Option α) : List Byte :=
  match o with
  | some x => f x
  | none => []

def byteBytes (x : Byte) : List Byte := [x]

def boardBytes (f : BoardFields) : List Byte :=
  halfBytes (f.spare ++ bit f.frame ++ bit f.watch ++ bit f.dc ++ bit f.k ++ bit f.w ++ bit f.f2 ++ bit f.f1 ++ bit f.linger
    ++ bit f.late ++ bit f.lead ++ bit f.closeMin ++ bit f.openMin ++ bit f.h0)
  ++ optBytes byteBytes f.h0 ++ optBytes halfBytes f.openMin ++ optBytes halfBytes f.closeMin
  ++ optBytes byteBytes f.lead ++ optBytes byteBytes f.late ++ optBytes byteBytes f.linger
  ++ optBytes halfBytes f.f1 ++ optBytes halfBytes f.f2 ++ optBytes byteBytes f.w ++ optBytes byteBytes f.k
  ++ optBytes halfBytes f.dc ++ optBytes halfBytes f.watch ++ optBytes halfBytes f.frame

def publishBytes (f : PublishFields) : List Byte :=
  halfBytes f.id ++ [f.auditorium, f.feature, f.format] ++ relBytes f.start
  ++ [f.spare ++ bit f.salesOpen ++ bit f.delay ++ bit f.capacity ++ bit f.runtime]
  ++ optBytes halfBytes f.runtime ++ optBytes halfBytes f.capacity ++ optBytes byteBytes f.delay ++ optBytes relBytes f.salesOpen

def moveBytes (f : MoveFields) : List Byte :=
  halfBytes f.id ++ [f.spare ++ bit f.salesOpen ++ bit f.capacity ++ bit f.start ++ bit f.auditorium]
  ++ optBytes byteBytes f.auditorium ++ optBytes relBytes f.start ++ optBytes halfBytes f.capacity ++ optBytes relBytes f.salesOpen

def noticeBytes (f : NoticeFields) : List Byte :=
  [f.id, f.cls, f.selector] ++ halfBytes f.value
  ++ [f.spare ++ bit f.flash ++ bit f.expiry ++ bit f.activation ++ bit f.link ++ bit f.scope]
  ++ optBytes halfBytes f.scope ++ optBytes halfBytes f.link ++ optBytes relBytes f.activation ++ optBytes relBytes f.expiry
  ++ optBytes (fun x : Byte × Byte => [x.1, x.2]) f.flash

def entryBytes (f : EntryFields) : List Byte :=
  [f.carousel, f.placement, f.position] ++ halfBytes f.primary ++ halfBytes f.length
  ++ [f.spare ++ bit f.daypart ++ bit f.feature ++ bit f.alternate]
  ++ optBytes halfBytes f.alternate ++ optBytes byteBytes f.feature
  ++ optBytes (fun x : Half × Half => halfBytes x.1 ++ halfBytes x.2) f.daypart

def carouselBytes (f : CarouselFields) : List Byte :=
  [f.carousel, f.spare ++ bit f.horizon ++ bit f.length ++ bit f.fallback ++ bit f.mode]
  ++ optBytes byteBytes f.mode ++ optBytes halfBytes f.fallback ++ optBytes halfBytes f.length ++ optBytes halfBytes f.horizon

def panelBytes (f : PanelFields) : List Byte :=
  [f.panel, f.enabled, f.layout, f.auditoriums.extractLsb' 16 8, f.auditoriums.extractLsb' 8 8, f.auditoriums.extractLsb' 0 8,
   f.featureA, f.featureB, f.rows, f.pageDwell, f.noticeDwell, f.carousel, f.alwaysLit]

def timeBytes (f : TimeFields) : List Byte :=
  halfBytes f.year ++ [f.month, f.day, f.hour, f.minute, f.second]

/-- The n pairs of SET FILTER as sent. -/
def pairBytes : List (Byte × Half) → List Byte
  | [] => []
  | (k, n) :: r => k :: halfBytes n ++ pairBytes r

/-- A request's transaction, kind code and fields after the kind byte (spec/12); none for a command that is no request. -/
def fieldsOf : Instr → Option (Txn × Nat × List Byte)
  | .powerOnReset _ => none
  | .pinReset _ => none
  | .resetRelease => none
  | .secondEvent => none
  | .dwellExpiry _ => none
  | .holdExpiry _ => none
  | .salesStale => none
  | .minuteEvent => none
  | .midnightEvent => none
  | .flashTick => none
  | .frameTime _ => none
  | .lostIdentify _ => none
  | .replyWindowExpiry _ => none
  | .headReport _ _ => none
  | .reportLengthFailure _ _ => none
  | .zoneDeadline _ => none
  | .emptyTransaction _ => none
  | .malformedMessage _ _ => none
  | .chipSelectAssertion _ => none
  | .nothing t => some (t, 1, [])
  | .readEvents t n => some (t, 2, [n])
  | .setFilter t l => some (t, 3, BitVec.ofNat 8 l.length :: pairBytes l)
  | .queryBoard t => some (t, 4, [])
  | .queryShowing t id => some (t, 5, halfBytes id)
  | .queryHold t tag => some (t, 6, halfBytes tag)
  | .queryNotice t id => some (t, 7, [id])
  | .queryCarousel t c p => some (t, 8, [c, p])
  | .queryPanel t p => some (t, 9, [p])
  | .setTime t f => some (t, 10, timeBytes f)
  | .wake t => some (t, 11, [])
  | .setBoard t f => some (t, 12, boardBytes f)
  | .boardClear t => some (t, 13, [])
  | .putAuditorium t a n c => some (t, 16, a :: halfBytes n ++ halfBytes c)
  | .dropAuditorium t a => some (t, 17, [a])
  | .suspendAuditorium t a => some (t, 18, [a])
  | .resumeAuditorium t a => some (t, 19, [a])
  | .putFeature t f n r m => some (t, 20, f :: halfBytes n ++ r :: halfBytes m)
  | .dropFeature t f => some (t, 21, [f])
  | .putText t id b => some (t, 22, halfBytes id ++ BitVec.ofNat 8 b.length :: b)
  | .dropText t id => some (t, 23, halfBytes id)
  | .publish t f => some (t, 32, publishBytes f)
  | .move t f => some (t, 33, moveBytes f)
  | .delay t id d => some (t, 34, halfBytes id ++ [d])
  | .setCapacity t id c => some (t, 35, halfBytes id ++ halfBytes c)
  | .cancel t id => some (t, 36, halfBytes id)
  | .sell t id n => some (t, 48, halfBytes id ++ [n])
  | .refund t id n => some (t, 49, halfBytes id ++ [n])
  | .snapshot t id v => some (t, 50, halfBytes id ++ halfBytes v)
  | .hold t tag id n l => some (t, 51, halfBytes tag ++ halfBytes id ++ n :: halfBytes l)
  | .confirm t tag n => some (t, 52, halfBytes tag ++ [n])
  | .release t tag => some (t, 53, halfBytes tag)
  | .readJournal t i n => some (t, 54, [i, n])
  | .swapJournal t => some (t, 55, [])
  | .postNotice t f => some (t, 64, noticeBytes f)
  | .withdrawNotice t id => some (t, 65, [id])
  | .putEntry t f => some (t, 80, entryBytes f)
  | .dropEntry t c p => some (t, 81, [c, p])
  | .setCarousel t f => some (t, 82, carouselBytes f)
  | .setPanel t f => some (t, 96, panelBytes f)

/-- The message of a request: its length byte, its kind byte and its fields (spec/12). -/
def messageBytes (i : Instr) : Option (Port × List Byte) :=
  (fieldsOf i).map fun r => (r.1.port, BitVec.ofNat 8 (r.2.2.length + 2) :: BitVec.ofNat 8 r.2.1 :: r.2.2)

end Wire

end Sys2Proof
end

