-- ==== Sys2Proof/Machine/State.lean ====
section
/-! DEFINITION. Everything the spec gives the 624, as plain data, and its value at reset. Panels, carousels, auditoriums,
features and texts are numbered from 1; a table of n entries is a list of n, entry k at index k - 1 (Ops.lean reads and writes
them). Live records are lists in ascending order of their id or tag, so that equal tables are equal data. -/

namespace Sys2Proof.Machine

/-- The block has no fault: a refused request is answered by a reply (R179), and link faults are latched as state (R171). -/
inductive Fault where
  deriving DecidableEq, Repr

/-- Why a command has no meaning. No arm of exec answers with it: every row of the table has its meaning. -/
inductive Refusal where
  /-- Raised by an arm of exec whose command has no meaning yet. Safe: the model stops. -/
  | notModelled (mnemonic : String)
  deriving DecidableEq, Repr

/-! ### Calendar Unit (spec/01) -/

/-- The clock state (R1, R15). -/
inductive ClockState where
  | unset | running
  deriving DecidableEq, Repr

/-- The calendar and the board minute (spec/01, "Calendar state"). The weekday is derived from the date (R1). -/
structure Calendar where
  year : Nat
  month : Nat
  day : Nat
  hour : Nat
  minute : Nat
  second : Nat
  clock : ClockState
  /-- The board minute M (R3, R4). -/
  m : Nat
  /-- The held mark (R4). -/
  held : Bool
  /-- The day-start hour H0. -/
  h0 : Nat
  /-- The business-day base D0, which may lie below 0 (R5). -/
  d0 : Int
  openMin : Nat
  closeMin : Nat
  hush : Bool
  wake : Bool
  deriving DecidableEq, Repr

/-- Which reset a reset is (R190). -/
inductive ResetKind where
  | powerOn | pin
  deriving DecidableEq, Repr

/-- RSTN: released, or asserted since a power-on or a pin reset. -/
inductive ResetLine where
  | released
  | asserted (kind : ResetKind)
  deriving DecidableEq, Repr

/-- The core clock in milliseconds, and the instant of the next flash tick, present from the release of a reset (R113).
Log 2. -/
structure CoreClock where
  now : Nat
  nextTick : Option Nat
  deriving DecidableEq, Repr

/-! ### Catalogue (spec/02) -/

/-- The state of an auditorium (R22). -/
inductive AudState where
  | inService | suspended
  deriving DecidableEq, Repr

/-- An auditorium entry (R18); an undefined one has no name text (0), capacity 0 and the state IN SERVICE. -/
structure Auditorium where
  defined : Bool
  name : Nat
  capacity : Nat
  state : AudState
  deriving DecidableEq, Repr

/-- A present feature entry (R24). -/
structure Feature where
  title : Nat
  rating : Nat
  runtime : Nat
  deriving DecidableEq, Repr

/-- A text id of the text store (R27): the revision is kept whether or not the text is present. -/
structure TextEntry where
  present : Bool
  bytes : List Byte
  revision : Nat
  deriving DecidableEq, Repr

/-- The three tables of the Catalogue: 24 auditoriums, 128 features, 384 texts. -/
structure Catalogue where
  auditoriums : List Auditorium
  features : List (Option Feature)
  texts : List TextEntry
  deriving DecidableEq, Repr

/-! ### Showing Table and Seat Accounting Unit (spec/03, 04, 05) -/

/-- A showing's state (R37). -/
inductive ShowState where
  | planned | onSale | seating | started | closed | ended | cancelled
  deriving DecidableEq, Repr

/-- The band (R87). -/
inductive Band where
  | opn | filling | few | full
  deriving DecidableEq, Repr

/-- A showing record (R34) with its seat fields (R59). -/
structure Showing where
  id : Nat
  auditorium : Nat
  feature : Nat
  format : Nat
  start : Nat
  runtime : Nat
  delay : Nat
  salesOpen : Option Nat
  /-- Capacity C. -/
  cap : Nat
  /-- Seats sold S. -/
  sold : Nat
  /-- Seats held H. -/
  held : Nat
  tally : Nat
  pace : Nat
  band : Band
  fast : Bool
  oversold : Bool
  state : ShowState
  purge : Option Nat
  deriving DecidableEq, Repr

/-- The board settings of the lifecycle: L0, W0 and G (R46). -/
structure LifeSettings where
  lead : Nat
  late : Nat
  linger : Nat
  deriving DecidableEq, Repr

/-- A live hold (R67). -/
structure Hold where
  tag : Nat
  showing : Nat
  count : Nat
  remaining : Nat
  deriving DecidableEq, Repr

/-- The sales state (R77). -/
inductive SalesState where
  | current | stale
  deriving DecidableEq, Repr

/-- The sales watch (R77). -/
structure Watch where
  sales : SalesState
  count : Nat
  period : Nat
  deriving DecidableEq, Repr

/-- The kind of a journal entry (R80). -/
inductive JournalKind where
  | sell | refund | hold | confirm | release | expire | closeRelease | cancelRelease | snapshot | capacity
  deriving DecidableEq, Repr

/-- A journal entry (R80). -/
structure JournalEntry where
  kind : JournalKind
  showing : Nat
  count : Nat
  sold : Nat
  held : Nat
  m : Nat
  second : Nat
  deriving DecidableEq, Repr

/-- The seat journal: the FILLING bank, the CLOSED bank and the dropped count (R79, R81). -/
structure Journal where
  filling : List JournalEntry
  closed : List JournalEntry
  dropped : Nat
  deriving DecidableEq, Repr

/-- The board settings of the availability figure (R85). -/
structure FigureSettings where
  f1 : Nat
  f2 : Nat
  w : Nat
  k : Nat
  dc : Nat
  deriving DecidableEq, Repr

/-! ### Notice Unit (spec/06) -/

/-- A notice's class, lowest first (R100). -/
inductive NoticeClass where
  | info | showing | desk | alert
  deriving DecidableEq, Repr

/-- A notice's content (R102). -/
inductive Content where
  | text (id : Nat)
  | system (code : Nat) (parameter : Nat)
  deriving DecidableEq, Repr

/-- A set of panels: bit p - 1 stands for panel p (spec/12). -/
abbrev PanelSet := BitVec 12

/-- A board minute and a second field (R2). -/
structure TimeTag where
  m : Nat
  second : Nat
  deriving DecidableEq, Repr

/-- PENDING or ACTIVE (R100). -/
inductive NoticeState where
  | pending | active
  deriving DecidableEq, Repr

/-- A notice record (R100). -/
structure Notice where
  id : Nat
  cls : NoticeClass
  content : Content
  /-- The empty set means every panel. -/
  scope : PanelSet
  link : Option Nat
  activation : Option Nat
  expiry : Option Nat
  /-- On-hold a and off-hold b in units of 100 ms. -/
  flash : Option (Nat × Nat)
  state : NoticeState
  /-- Present in ACTIVE. -/
  instant : Option TimeTag
  /-- Present in ACTIVE with flash. -/
  position : Option Nat
  system : Bool
  deriving DecidableEq, Repr

/-- The notice table, the activation list (ids, oldest first, R101) and the takeover table (R114). -/
structure NoticeUnit where
  table : List Notice
  activation : List Nat
  takeover : List (Option Nat)
  deriving DecidableEq, Repr

/-! ### Carousel Unit (spec/07) -/

/-- A carousel's mode (R118). -/
inductive Mode where
  | spread | lockstep
  deriving DecidableEq, Repr

/-- The take outcome (R127). -/
inductive TakeOutcome where
  | none | found | dry
  deriving DecidableEq, Repr

/-- The kind of a clip being played (R118). -/
inductive ClipKind where
  | primary | alternate | fallback
  deriving DecidableEq, Repr

/-- An entry of a ring (R119). -/
structure Entry where
  primary : Nat
  alternate : Option Nat
  usingAlternate : Bool
  disabled : Bool
  length : Nat
  feature : Option Nat
  /-- [from, to) in wall minutes. -/
  daypart : Option (Nat × Nat)
  deriving DecidableEq, Repr

/-- A LOCKSTEP round in progress (R118). -/
structure Round where
  ref : Option Nat
  clip : Nat
  kind : ClipKind
  length : Nat
  pending : PanelSet
  deriving DecidableEq, Repr

/-- A carousel (R118). -/
structure Carousel where
  mode : Mode
  horizon : Nat
  fallback : Option Nat
  fallbackLength : Nat
  usable : Bool
  ring : List Entry
  cursor : Nat
  round : Option Round
  outcome : TakeOutcome
  deriving DecidableEq, Repr

/-- Where a play's clip came from (R120). -/
inductive PlaySource where
  | entry | fallback
  deriving DecidableEq, Repr

/-- A play record (R120). -/
structure Play where
  carousel : Nat
  source : PlaySource
  ref : Option Nat
  clip : Nat
  kind : ClipKind
  length : Nat
  roundMark : Bool
  deriving DecidableEq, Repr

/-! ### Page Composer (spec/08) -/

/-- A panel's layout (R138). -/
inductive Layout where
  | board | feature | desk | notice
  deriving DecidableEq, Repr

/-- A panel's profile (R138). The auditorium set: bit a - 1 stands for auditorium a, empty means all. -/
structure Profile where
  enabled : Bool
  layout : Layout
  auditoriums : BitVec 24
  featureA : Nat
  featureB : Nat
  rows : Nat
  pageDwell : Nat
  noticeDwell : Nat
  carousel : Nat
  alwaysLit : Bool
  deriving DecidableEq, Repr

/-- The current cue of a zone (R137). -/
structure Cue where
  clip : Nat
  length : Nat
  token : Nat
  deriving DecidableEq, Repr

/-- The trailer zone (R137, R148 to R150). A CUED zone has its deadline exactly when its first-frame mark is set. -/
inductive Zone where
  | idle
  | cued (cue : Cue) (deadline : Option Nat)
  | playing (cue : Cue) (deadline : Nat)
  deriving DecidableEq, Repr

/-- A panel context (R137). The text-current set is the ascending list of the marked text ids. -/
structure Panel where
  profile : Profile
  pageIndex : Nat
  pageCount : Nat
  noticeIndex : Nat
  noticeCount : Nat
  hushed : Bool
  zone : Zone
  lastToken : Nat
  current : List Nat
  deriving DecidableEq, Repr

/-! ### Link Controller (spec/09, 12) -/

/-- A link's head state (R162). -/
inductive HeadState where
  | absent | seeking | live | degraded | lost
  deriving DecidableEq, Repr

/-- The header of a frame: the calendar, the clock state and the blank mark (R140 step 4, spec/12). -/
structure FrameHeader where
  panel : Nat
  year : Nat
  month : Nat
  day : Nat
  weekday : Nat
  hour : Nat
  minute : Nat
  second : Nat
  running : Bool
  blank : Bool
  deriving DecidableEq, Repr

/-- A row entry (R142). -/
structure Row where
  id : Nat
  wallStart : Nat
  delay : Nat
  auditorium : Nat
  nameText : Nat
  nameRevision : Nat
  titleText : Nat
  titleRevision : Nat
  rating : Nat
  format : Nat
  state : ShowState
  band : Band
  displayed : Nat
  more : Bool
  fast : Bool
  stale : Bool
  suspended : Bool
  oversold : Bool
  deriving DecidableEq, Repr

/-- The notice a frame carries (R144, R145); the revision is that of a text content, 0 for a system code. -/
structure NoticePart where
  id : Nat
  cls : NoticeClass
  content : Content
  revision : Nat
  on : Bool
  deriving DecidableEq, Repr

/-- The trailer field (R148). -/
inductive Trailer where
  | empty
  | cue (clip : Nat) (length : Nat) (token : Nat)
  | play (clip : Nat) (token : Nat)
  deriving DecidableEq, Repr

/-- A text block (R152). -/
structure TextBlock where
  id : Nat
  revision : Nat
  bytes : List Byte
  deriving DecidableEq, Repr

/-- What a PAGE frame carries beyond its header (R140). -/
structure PageBody where
  takeover : Bool
  noShowings : Bool
  pageIndex : Nat
  pageCount : Nat
  rows : List Row
  notice : Option NoticePart
  trailer : Trailer
  texts : List TextBlock
  deriving DecidableEq, Repr

/-- A frame the part sends on a link (R158). -/
inductive Frame where
  | identify (header : FrameHeader)
  | page (header : FrameHeader) (body : PageBody)
  deriving DecidableEq, Repr

/-- The kind of frame an open reply window answers. -/
inductive FrameKind where
  | identify | page
  deriving DecidableEq, Repr

/-- A link context (R156); lastFrame holds what the link last carried, an output. -/
structure LinkContext where
  head : HeadState
  missRun : Nat
  lostCount : Nat
  nextFrame : Option Nat
  window : Option FrameKind
  headRows : Option Nat
  zonePresent : Option Bool
  generation : Nat
  generationKnown : Bool
  reportedBlank : Option Bool
  lastBlank : Option Bool
  checkFault : Bool
  timeoutFault : Bool
  identityFault : Bool
  lastFrame : Option Frame
  deriving DecidableEq, Repr

/-! ### Port Interface and Event Router (spec/10, 11) -/

/-- A port's role (R173). -/
inductive Role where
  | schedule | sales | desk | service
  deriving DecidableEq, Repr

/-- A reply's result (R179, R193). -/
inductive Result where
  | done | role | malformed | unknown | exists | full | inUse | past | horizon | state | suspended | noSeats | unset | range
  deriving DecidableEq, Repr

/-- A reply (R179, R193): its header's fields and its data bytes. -/
structure Reply where
  kind : Byte
  result : Result
  clamped : Bool
  earlierLost : Bool
  data : List Byte
  deriving DecidableEq, Repr

/-- The transfer state of a transaction in progress (R173, R174): the reply fixed when chip-select was asserted, the whole
bytes received, and the number of whole bytes clocked out. Log 4. -/
structure Transfer where
  reply : Option Reply
  received : List Byte
  clockedOut : Nat
  deriving DecidableEq, Repr

/-- A port's chip-select. A port whose chip-select has been asserted since a reset waits for it to be released and asserted
again (R183). -/
inductive ChipSelect where
  | released
  | asserted (transfer : Transfer)
  | waiting
  deriving DecidableEq, Repr

/-- A host port (R173). -/
structure PortState where
  role : Role
  slot : Option Reply
  chip : ChipSelect
  deriving DecidableEq, Repr

/-- The kinds of event (R185). -/
inductive EventKind where
  | showingState | showingFreed | band | oversold | holdEnded | salesStale | salesResumed | journalFull | noticeState
  | panelState | layoutClamped | clipFault | clipTimeout | carouselDry | dayStart | clockLimit | hush | boardCleared | reset
  deriving DecidableEq, Repr

/-- The kinds of subject (R184). -/
inductive SubjectKind where
  | board | showing | hold | notice | panel | carousel
  deriving DecidableEq, Repr

/-- An event record (R184). -/
structure EventRecord where
  kind : EventKind
  m : Nat
  second : Nat
  subject : SubjectKind
  number : Nat
  detail : Nat
  deriving DecidableEq, Repr

/-- A pair of a written filter (R186); kind 0 means any. -/
structure FilterPair where
  kind : Nat
  number : Nat
  deriving DecidableEq, Repr

/-- A port's event queue, oldest record first, with its OVERRUN mark and filter list (R186 to R188). -/
structure PortQueue where
  records : List EventRecord
  overrun : Bool
  filter : List FilterPair
  deriving DecidableEq, Repr

/-- One thing for each of the three host ports. -/
structure PerPort (α : Type) where
  a : α
  b : α
  c : α
  deriving DecidableEq, Repr

/-- Where a record raised at an arrival comes from. Records of one source keep the order in which they were raised; the order
between sources is open (R40, R60, R107, R184). Log 9. -/
inductive Source where
  | calendar
  | board
  | showing (id : Nat)
  | seats (id : Nat)
  | hold (tag : Nat)
  | notice (id : Nat)
  | link (p : Nat)
  | watch
  | play (p : Nat)
  deriving DecidableEq, Repr

/-- The state of the machine. The last four fields are the model's own: the commands waiting, the records and the journal
entries of the arrival in progress (empty between steps), and the counter of the order choices made. -/
structure State where
  rstn : ResetLine
  deferred : List EventRecord
  cal : Calendar
  core : CoreClock
  catalogue : Catalogue
  showings : List Showing
  life : LifeSettings
  holds : List Hold
  watch : Watch
  journal : Journal
  figure : FigureSettings
  notices : NoticeUnit
  carousels : List Carousel
  plays : List (Option Play)
  panels : List Panel
  links : List LinkContext
  framePeriod : Nat
  ports : PerPort PortState
  queues : PerPort PortQueue
  pending : List Instr
  outbox : List (Source × EventRecord)
  journalBox : List (Source × JournalEntry)
  choice : Nat
  deriving DecidableEq, Repr

/-! ### Values at reset -/

/-- The calendar after power-on reset (R15). -/
def Calendar.atPowerOn : Calendar where
  year := 2000
  month := 1
  day := 1
  hour := 0
  minute := 0
  second := 0
  clock := .unset
  m := 0
  held := false
  h0 := 6
  d0 := 0
  openMin := 0
  closeMin := 0
  hush := false
  wake := false

/-- An undefined auditorium entry (spec/02, R32). -/
def Auditorium.undefined : Auditorium where
  defined := false
  name := 0
  capacity := 0
  state := .inService

/-- A text id that was never written (R32). -/
def TextEntry.absent : TextEntry where
  present := false
  bytes := []
  revision := 0

/-- The Catalogue after a power-on or pin reset (R32). -/
def Catalogue.atReset : Catalogue where
  auditoriums := List.replicate 24 Auditorium.undefined
  features := List.replicate 128 none
  texts := List.replicate 384 TextEntry.absent

/-- L0, W0 and G by default (R46). -/
def LifeSettings.atReset : LifeSettings where
  lead := 20
  late := 15
  linger := 5

/-- The sales watch after a power-on or pin reset (R84). -/
def Watch.atReset : Watch where
  sales := .stale
  count := 0
  period := 30

/-- The seat journal emptied (R84). -/
def Journal.empty : Journal where
  filling := []
  closed := []
  dropped := 0

/-- F1, F2, W, K and Dc by default (R85, R99). -/
def FigureSettings.atReset : FigureSettings where
  f1 := 600
  f2 := 900
  w := 25
  k := 10
  dc := 99

/-- The Notice Unit emptied (R117). -/
def NoticeUnit.empty : NoticeUnit where
  table := []
  activation := []
  takeover := List.replicate 12 none

/-- A carousel after a power-on or pin reset (R135). -/
def Carousel.atReset : Carousel where
  mode := .spread
  horizon := 240
  fallback := none
  fallbackLength := 30
  usable := false
  ring := []
  cursor := 0
  round := none
  outcome := .none

/-- A profile's defaults (R138). -/
def Profile.atReset : Profile where
  enabled := false
  layout := .board
  auditoriums := 0
  featureA := 0
  featureB := 0
  rows := 8
  pageDwell := 10
  noticeDwell := 8
  carousel := 0
  alwaysLit := false

/-- A panel context after a power-on or pin reset (R155). -/
def Panel.atReset : Panel where
  profile := Profile.atReset
  pageIndex := 0
  pageCount := 10
  noticeIndex := 0
  noticeCount := 8
  hushed := false
  zone := .idle
  lastToken := 0
  current := []

/-- A link context after a power-on or pin reset (R172). -/
def LinkContext.atReset : LinkContext where
  head := .absent
  missRun := 0
  lostCount := 0
  nextFrame := none
  window := none
  headRows := none
  zonePresent := none
  generation := 0
  generationKnown := false
  reportedBlank := none
  lastBlank := none
  checkFault := false
  timeoutFault := false
  identityFault := false
  lastFrame := none

/-- A port after a reset (R183) with the role its straps gave. -/
def PortState.atReset (role : Role) : PortState where
  role := role
  slot := none
  chip := .released

/-- A queue emptied, its OVERRUN mark and filter list cleared (R190). -/
def PortQueue.empty : PortQueue where
  records := []
  overrun := false
  filter := []

/-- The RESET record as the release of a power-on reset places it (R190). -/
def EventRecord.powerOnReset : EventRecord where
  kind := .reset
  m := 0
  second := 0
  subject := .board
  number := 0
  detail := 1

/-- A queue right after the release of a power-on reset (R190). -/
def PortQueue.afterPowerOn : PortQueue where
  records := [EventRecord.powerOnReset]
  overrun := false
  filter := []

/-- The machine right after the release of a power-on reset, its ports strapped SCHEDULE, SALES and DESK (log 5, log 6). -/
def State.reset : State where
  rstn := .released
  deferred := []
  cal := Calendar.atPowerOn
  core := { now := 0, nextTick := some 100 }
  catalogue := Catalogue.atReset
  showings := []
  life := LifeSettings.atReset
  holds := []
  watch := Watch.atReset
  journal := Journal.empty
  figure := FigureSettings.atReset
  notices := NoticeUnit.empty
  carousels := List.replicate 8 Carousel.atReset
  plays := List.replicate 12 none
  panels := List.replicate 12 Panel.atReset
  links := List.replicate 12 LinkContext.atReset
  framePeriod := 500
  ports := { a := PortState.atReset .schedule, b := PortState.atReset .sales, c := PortState.atReset .desk }
  queues := { a := PortQueue.afterPowerOn, b := PortQueue.afterPowerOn, c := PortQueue.afterPowerOn }
  pending := []
  outbox := []
  journalBox := []
  choice := 0

end Sys2Proof.Machine
end

