-- ==== Sys2Proof/Machine/Ops.lean ====
section
/-! DEFINITION. The operations that every block shares: tables numbered from 1, tables of live records, the raising and routing
of event records, the journal's banks, and the transaction of a host port. -/

namespace Sys2Proof.Machine

/-! ### Tables -/

/-- Entry n of a table numbered from 1; the default where the table has no such entry. -/
def slot {α : Type} (d : α) (l : List α) (n : Nat) : α :=
  match n with
  | 0 => d
  | k + 1 => l.getD k d

/-- The table with entry n changed; nothing changes where the table has no such entry. -/
def modSlot {α : Type} (f : α → α) (l : List α) (n : Nat) : List α :=
  match n with
  | 0 => l
  | k + 1 => l.modify k f

/-- The live record with a key. -/
def findKey {α : Type} (key : α → Nat) (k : Nat) (l : List α) : Option α := l.find? fun x => key x == k

/-- Whether a record with a key is live. -/
def hasKey {α : Type} (key : α → Nat) (k : Nat) (l : List α) : Bool := l.any fun x => key x == k

/-- A record put in its place by ascending key. -/
def insertKey {α : Type} (key : α → Nat) (x : α) : List α → List α
  | [] => [x]
  | y :: l => if key x < key y then x :: y :: l else y :: insertKey key x l

/-- The live records without those of a key. -/
def eraseKey {α : Type} (key : α → Nat) (k : Nat) (l : List α) : List α := l.filter fun x => key x != k

/-- The live records with those of a key changed. -/
def modKey {α : Type} (key : α → Nat) (k : Nat) (f : α → α) (l : List α) : List α :=
  l.map fun x => if key x = k then f x else x

/-- The panel numbers. -/
def panelNumbers : List Nat := [1, 2, 3, 4, 5, 6, 7, 8, 9, 10, 11, 12]

/-- The number of the panel a link serves. -/
def panelOf (p : Link) : Nat := p.val + 1

/-- A value pulled into a range ("Clamp and refuse", spec/00_scope.md). -/
def clamp (lo hi n : Nat) : Nat := max lo (min hi n)

/-- Whether a panel set names panel p. -/
def inSet (set : PanelSet) (p : Nat) : Bool := set.getLsbD (p - 1)

/-- A panel set without panel p. -/
def dropFromSet (set : PanelSet) (p : Nat) : PanelSet := set &&& ~~~(1#12 <<< (p - 1))

/-- The set of the panels for which a test holds. -/
def setOf (test : Nat → Bool) : PanelSet :=
  panelNumbers.foldl (fun acc p => if test p then acc ||| (1#12 <<< (p - 1)) else acc) 0

/-! ### Reading and changing the tables of State -/

def State.showing? (s : State) (id : Nat) : Option Showing := findKey Showing.id id s.showings
def State.hold? (s : State) (tag : Nat) : Option Hold := findKey Hold.tag tag s.holds
def State.notice? (s : State) (id : Nat) : Option Notice := findKey Notice.id id s.notices.table
def State.auditorium (s : State) (n : Nat) : Auditorium := slot Auditorium.undefined s.catalogue.auditoriums n
def State.feature? (s : State) (n : Nat) : Option Feature := slot none s.catalogue.features n
def State.text (s : State) (n : Nat) : TextEntry := slot TextEntry.absent s.catalogue.texts n
def State.carousel (s : State) (k : Nat) : Carousel := slot Carousel.atReset s.carousels k
def State.play? (s : State) (p : Nat) : Option Play := slot none s.plays p
def State.panel (s : State) (p : Nat) : Panel := slot Panel.atReset s.panels p
def State.link (s : State) (p : Nat) : LinkContext := slot LinkContext.atReset s.links p
def State.takeover (s : State) (p : Nat) : Option Nat := slot none s.notices.takeover p

def State.modShowing (id : Nat) (f : Showing → Showing) (s : State) : State :=
  { s with showings := modKey Showing.id id f s.showings }
def State.modCarousel (k : Nat) (f : Carousel → Carousel) (s : State) : State := { s with carousels := modSlot f s.carousels k }
def State.setPlay (p : Nat) (r : Option Play) (s : State) : State := { s with plays := modSlot (fun _ => r) s.plays p }
def State.modPanel (p : Nat) (f : Panel → Panel) (s : State) : State := { s with panels := modSlot f s.panels p }
def State.modLink (p : Nat) (f : LinkContext → LinkContext) (s : State) : State := { s with links := modSlot f s.links p }
def State.setAuditorium (n : Nat) (a : Auditorium) (s : State) : State :=
  { s with catalogue := { s.catalogue with auditoriums := modSlot (fun _ => a) s.catalogue.auditoriums n } }
def State.setFeature (n : Nat) (f : Option Feature) (s : State) : State :=
  { s with catalogue := { s.catalogue with features := modSlot (fun _ => f) s.catalogue.features n } }
def State.setText (n : Nat) (t : TextEntry) (s : State) : State :=
  { s with catalogue := { s.catalogue with texts := modSlot (fun _ => t) s.catalogue.texts n } }

/-- The thing that belongs to a port. -/
def PerPort.get {α : Type} (x : PerPort α) : Port → α
  | .a => x.a
  | .b => x.b
  | .c => x.c

/-- The thing that belongs to a port, changed. -/
def PerPort.mod {α : Type} (f : α → α) (x : PerPort α) : Port → PerPort α
  | .a => { x with a := f x.a }
  | .b => { x with b := f x.b }
  | .c => { x with c := f x.c }

def State.port (s : State) (p : Port) : PortState := s.ports.get p
def State.queue (s : State) (p : Port) : PortQueue := s.queues.get p
def State.modPort (p : Port) (f : PortState → PortState) (s : State) : State := { s with ports := s.ports.mod f p }
def State.modQueue (p : Port) (f : PortQueue → PortQueue) (s : State) : State := { s with queues := s.queues.mod f p }

/-- The number of a port in a detail or a reply: A 1, B 2, C 3 (spec/12). -/
def portCode : Port → Nat
  | .a => 1
  | .b => 2
  | .c => 3

/-! ### Event records (spec/11) -/

/-- The kind codes of R185. -/
def EventKind.code : EventKind → Nat
  | .showingState => 1
  | .showingFreed => 2
  | .band => 3
  | .oversold => 4
  | .holdEnded => 5
  | .salesStale => 6
  | .salesResumed => 7
  | .journalFull => 8
  | .noticeState => 9
  | .panelState => 10
  | .layoutClamped => 11
  | .clipFault => 12
  | .clipTimeout => 13
  | .carouselDry => 14
  | .dayStart => 15
  | .clockLimit => 16
  | .hush => 17
  | .boardCleared => 18
  | .reset => 19

/-- The subject of each kind (R185). -/
def EventKind.subject : EventKind → SubjectKind
  | .showingState | .showingFreed | .band | .oversold => .showing
  | .holdEnded => .hold
  | .noticeState => .notice
  | .panelState | .layoutClamped | .clipTimeout => .panel
  | .clipFault | .carouselDry => .carousel
  | .salesStale | .salesResumed | .journalFull | .dayStart | .clockLimit | .hush | .boardCleared | .reset => .board

/-- The record of an event raised now: its time tag is the current M and second field (R2, R184). -/
def State.record (s : State) (k : EventKind) (number detail : Nat) : EventRecord :=
  { kind := k, m := s.cal.m, second := s.cal.second, subject := k.subject, number, detail }

/-- An event raised at the arrival in progress. -/
def raise (g : Source) (k : EventKind) (number detail : Nat) (s : State) : State :=
  { s with outbox := s.outbox ++ [(g, s.record k number detail)] }

/-- The kinds of a role's default set (R186). -/
def defaultAccepts : Role → EventKind → Bool
  | .sales, k => match k with
    | .showingState | .band | .oversold | .holdEnded | .salesStale | .salesResumed => true
    | _ => false
  | .schedule, k => match k with
    | .showingState | .showingFreed | .panelState | .layoutClamped | .clipFault | .clipTimeout | .carouselDry | .dayStart
    | .clockLimit => true
    | _ => false
  | .desk, _ => true
  | .service, _ => true

/-- Whether a pair of a written filter matches a record: the subject kind is not compared (R186). -/
def FilterPair.accepts (f : FilterPair) (r : EventRecord) : Bool :=
  (f.kind == 0 || f.kind == r.kind.code) && (f.number == 0 || f.number == r.number)

/-- Whether a record is appended to a port's queue: RESET and BOARD CLEARED always (R186). -/
def accepts (role : Role) (filter : List FilterPair) (r : EventRecord) : Bool :=
  r.kind == .reset || r.kind == .boardCleared ||
    match filter with
    | [] => defaultAccepts role r.kind
    | f :: l => (f :: l).any fun x => x.accepts r

/-- A record joins the end of a queue; a full queue discards its oldest record and sets OVERRUN (R188). -/
def PortQueue.push (q : PortQueue) (r : EventRecord) : PortQueue :=
  if q.records.length < Config.queuePlaces then { q with records := q.records ++ [r] }
  else { q with records := q.records.drop 1 ++ [r], overrun := true }

/-- A record offered to one port (R186). -/
def offer (role : Role) (r : EventRecord) (q : PortQueue) : PortQueue :=
  if accepts role q.filter r then q.push r else q

/-- A record offered to the three ports at one arrival (R184, R186). -/
def offerAll (ports : PerPort PortState) (q : PerPort PortQueue) (r : EventRecord) : PerPort PortQueue :=
  { a := offer ports.a.role r q.a
    b := offer ports.b.role r q.b
    c := offer ports.c.role r q.c }

/-- A port's attention line: asserted while its queue holds a record, released while RSTN is asserted (R188). -/
def State.attention (s : State) (p : Port) : Bool :=
  match s.rstn with
  | .asserted _ => false
  | .released => !(s.queue p).records.isEmpty

/-! ### The open orders, and the end of an arrival -/

/-- What an arrival raised, put in an order: things of one source keep the order in which they were raised, and the order
between sources is a free choice (R40, R60, R70, R74, R107, R184). Log 9. -/
def arrange {α : Type} : Nat → List (Source × α) → List (Source × α)
  | _, [] => []
  | k, x :: l =>
    let rest := arrange (k + 1) l
    let room := rest.findIdx fun y => decide (y.1 = x.1)
    if room = 0 then x :: rest else rest.insertIdx (Config.pick k % (room + 1)) x

/-- Things whose order is open, in a freely chosen order; each is a source of its own. -/
def anyOrder {α : Type} (k : Nat) (source : α → Source) (l : List α) : List α :=
  (arrange k (l.map fun x => (source x, x))).map fun x => x.2

/-- A part of an arrival whose records stand in any order between their own sources, and as one whole after what a source g has
raised: they join g's records in the order chosen. Log 9. -/
def inAnyOrder (g : Source) (f : State → State) (s : State) : State :=
  let t := f { s with outbox := [] }
  { t with
    outbox := s.outbox ++ (arrange t.choice t.outbox).map fun x => (g, x.2)
    choice := t.choice + t.outbox.length }

/-- An entry joins the FILLING bank, or is dropped where the bank is full (R79, R81). -/
def Journal.append (j : Journal) (e : JournalEntry) : Journal :=
  if j.filling.length < Config.bankPlaces then { j with filling := j.filling ++ [e] }
  else { j with dropped := min 65535 (j.dropped + 1) }

/-- An entry for the seat journal, made at the arrival in progress. -/
def journalize (g : Source) (e : JournalEntry) (s : State) : State := { s with journalBox := s.journalBox ++ [(g, e)] }

/-- The journal once the entries of the arrival have joined the FILLING bank (R79, R81). -/
def State.settledJournal (s : State) : Journal :=
  ((arrange s.choice s.journalBox).map fun x => x.2).foldl Journal.append s.journal

/-- The records of the arrival in the order in which they join the queues. JOURNAL FULL, raised at the first entry dropped since
the FILLING bank last became empty (R81), stands last (R60, log 10). -/
def State.settledRecords (s : State) : List EventRecord :=
  ((arrange (s.choice + s.journalBox.length) s.outbox).map fun x => x.2) ++
    if s.journal.dropped = 0 ∧ s.settledJournal.dropped ≠ 0 then [s.record .journalFull 0 0] else []

/-- The end of an arrival: what it raised joins the journal and the queues (R79, R184). -/
def settle (s : State) : State :=
  { s with
    journal := s.settledJournal
    queues := s.settledRecords.foldl (offerAll s.ports) s.queues
    outbox := []
    journalBox := []
    choice := s.choice + s.journalBox.length + s.outbox.length }

/-! ### The transaction of a host port (spec/10) -/

/-- What a request's rule answers: its result, the CLAMPED flag and the data (R179). -/
structure Answer where
  result : Result
  clamped : Bool
  data : List Byte
  deriving DecidableEq, Repr

/-- A request carried out (R179). -/
def done (clamped : Bool) (data : List Byte) : Answer := { result := .done, clamped, data }

/-- A request refused: the reply carries no data (R179). -/
def refuse (r : Result) : Answer := { result := r, clamped := false, data := [] }

/-- The length of a reply in bytes, its header of four counted (R193). -/
def Reply.length (r : Reply) : Nat := r.data.length + 4

/-- Whether a port takes the transaction that its chip-select ends: none while RSTN is asserted, and none after it until
chip-select has been released and asserted again (R183). -/
def State.takes (s : State) (p : Port) : Bool := s.rstn == .released && (s.port p).chip != .waiting

/-- The reply a port clocks out, and the whole bytes clocked before this release (R174). A release whose assertion is not
among the commands stands for the whole transaction (log 3). -/
def PortState.transfer (ps : PortState) : Transfer :=
  match ps.chip with
  | .asserted t => t
  | .released => { reply := ps.slot, received := [], clockedOut := 0 }
  | .waiting => { reply := ps.slot, received := [], clockedOut := 0 }

/-- The judging of the clock-out at the release: a reply clocked out whole leaves the slot (R174). -/
def clockOut (clocked : Nat) (ps : PortState) : PortState :=
  match ps.transfer.reply with
  | some r => if r.length ≤ ps.transfer.clockedOut + clocked then { ps with slot := none } else ps
  | none => ps

/-- A reply placed in the slot; one that replaces an uncollected reply carries EARLIER LOST (R177). -/
def placeReply (r : Reply) (ps : PortState) : PortState := { ps with slot := some { r with earlierLost := ps.slot.isSome } }

/-- Chip-select released: the transfer state ends (R173). -/
def deselect (ps : PortState) : PortState := { ps with chip := .released }

/-- The sales watch takes a message of a SALES port as a sign of life, before the request is carried out (R77, R176). Its
record joins the queues before those of the request (log 11). -/
def signOfLife (p : Port) (s : State) : State :=
  if (s.port p).role = .sales then
    match s.watch.sales with
    | .current => { s with watch := { s.watch with count := s.watch.period } }
    | .stale =>
      settle (raise .board .salesResumed 0 (portCode p)
        { s with watch := { s.watch with sales := .current, count := s.watch.period } })
  else s

/-- The release of a port's chip-select with a message: the clock-out is judged (R174), the sales watch hears the message
(R77), the message is handled, and its reply, where it has one, is placed in the slot (R177). -/
def transaction (p : Port) (clocked : Nat) (handle : State → Option Reply × State) (s : State) : State :=
  if s.takes p then
    let out := handle (signOfLife p (s.modPort p (clockOut clocked)))
    let settled := settle out.2
    match out.1 with
    | some r => settled.modPort p (deselect ∘ placeReply r)
    | none => settled.modPort p deselect
  else s.modPort p deselect

/-- The reply to a request of a kind (R179). -/
def replyTo (kind : Nat) (a : Answer) : Reply :=
  { kind := BitVec.ofNat 8 kind, result := a.result, clamped := a.clamped, earlierLost := false, data := a.data }

/-- A request: its message has the given length and kind, the roles that may issue it are listed (R176), and the owning block
carries it out. A port of another role is refused ROLE. -/
def request (t : Txn) (length kind : Nat) (roles : List Role) (body : State → Answer × State) (s : State) : State :=
  transaction t.port (length + t.surplus)
    (fun s =>
      if (s.port t.port).role ∈ roles then
        let out := body s
        (some (replyTo kind out.1), out.2)
      else (some (replyTo kind (refuse .role)), s))
    s

/-- Every role. -/
def allRoles : List Role := [.schedule, .sales, .desk, .service]

end Sys2Proof.Machine
end

