-- ==== Sys2Proof/Machine/Operands.lean ====
section
/-! DEFINITION. The operand forms: relative times and panel sets as requests carry them (R47, spec/12), and the encodings of
the fields that replies, frames and records carry (spec/12, "Field encodings"). -/

namespace Sys2Proof.Machine

/-! ### Fields of replies -/

/-- A one-byte field. -/
def u8 (n : Nat) : List Byte := [BitVec.ofNat 8 n]

/-- A two-byte field, most significant byte first. -/
def u16 (n : Nat) : List Byte := [BitVec.ofNat 8 (n / 256), BitVec.ofNat 8 n]

/-- A three-byte field. -/
def u24 (n : Nat) : List Byte := [BitVec.ofNat 8 (n / 65536), BitVec.ofNat 8 (n / 256), BitVec.ofNat 8 n]

/-- A signed three-byte field, two's complement (D0). -/
def s24 (n : Int) : List Byte := u24 (n % 16777216).toNat

/-- A mark or yes/no. -/
def mark (b : Bool) : List Byte := if b then [1#8] else [0#8]

/-- A board minute or absent: FFFFFF hexadecimal means absent. -/
def minuteOrAbsent : Option Nat → List Byte
  | some n => u24 n
  | none => [0xFF#8, 0xFF#8, 0xFF#8]

/-- An id, clip or notice that may be none, in one byte: none is sent as 0. -/
def idOrNone (o : Option Nat) : List Byte := u8 (o.getD 0)

/-- An id or clip that may be none, in two bytes: none is sent as 0. -/
def wideOrNone (o : Option Nat) : List Byte := u16 (o.getD 0)

/-- An entry reference: FF hexadecimal means none. -/
def refOrNone : Option Nat → List Byte
  | some n => u8 n
  | none => [0xFF#8]

/-- Yes 1, no 0, none 2 (zone present, blank states). -/
def threeWay : Option Bool → List Byte
  | some true => [1#8]
  | some false => [0#8]
  | none => [2#8]

/-- A panel set in two bytes, bits 12 to 15 clear. -/
def panelSetBytes (s : PanelSet) : List Byte := u16 s.toNat

/-- A showing's state code (R37). -/
def ShowState.code : ShowState → Nat
  | .planned => 0
  | .onSale => 1
  | .seating => 2
  | .started => 3
  | .closed => 4
  | .ended => 5
  | .cancelled => 6

/-- A band's code (R87). -/
def Band.code : Band → Nat
  | .opn => 0
  | .filling => 1
  | .few => 2
  | .full => 3

/-- A head state's code (R162). -/
def HeadState.code : HeadState → Nat
  | .absent => 0
  | .seeking => 1
  | .live => 2
  | .degraded => 3
  | .lost => 4

/-- A notice class's code (R100). -/
def NoticeClass.code : NoticeClass → Nat
  | .info => 0
  | .showing => 1
  | .desk => 2
  | .alert => 3

/-- A role's code: the strap coding (spec/12). -/
def Role.code : Role → Nat
  | .schedule => 0
  | .sales => 1
  | .desk => 2
  | .service => 3

/-- The role that a port's straps select (spec/00_scope.md, "Signals"). -/
def Role.ofStraps (b : BitVec 2) : Role :=
  if b = 0#2 then .schedule else if b = 1#2 then .sales else if b = 2#2 then .desk else .service

def Mode.code : Mode → Nat
  | .spread => 0
  | .lockstep => 1

def TakeOutcome.code : TakeOutcome → Nat
  | .none => 0
  | .found => 1
  | .dry => 2

def ClipKind.code : ClipKind → Nat
  | .primary => 0
  | .alternate => 1
  | .fallback => 2

def Layout.code : Layout → Nat
  | .board => 0
  | .feature => 1
  | .desk => 2
  | .notice => 3

def ClockState.code : ClockState → Nat
  | .unset => 0
  | .running => 1

def SalesState.code : SalesState → Nat
  | .current => 0
  | .stale => 1

def NoticeState.code : NoticeState → Nat
  | .pending => 0
  | .active => 1

/-- IN SERVICE 0, SUSPENDED 1. The layouts give an auditorium's state no code. PRESUMED, log 16. -/
def AudState.code : AudState → Nat
  | .inService => 0
  | .suspended => 1

def SubjectKind.code : SubjectKind → Nat
  | .board => 0
  | .showing => 1
  | .hold => 2
  | .notice => 3
  | .panel => 4
  | .carousel => 5

/-- A journal entry's kind code (spec/12, "Journal entry as read"). -/
def JournalKind.code : JournalKind → Nat
  | .sell => 1
  | .refund => 2
  | .hold => 3
  | .confirm => 4
  | .release => 5
  | .expire => 6
  | .closeRelease => 7
  | .cancelRelease => 8
  | .snapshot => 9
  | .capacity => 10

/-- A result's code (R193). -/
def Result.code : Result → Nat
  | .done => 0
  | .role => 1
  | .malformed => 2
  | .unknown => 3
  | .exists => 4
  | .full => 5
  | .inUse => 6
  | .past => 7
  | .horizon => 8
  | .state => 9
  | .suspended => 10
  | .noSeats => 11
  | .unset => 12
  | .range => 13

/-- Notice content: the selector, then the value (spec/12). -/
def contentBytes : Content → List Byte
  | .text id => u8 0 ++ u16 id
  | .system code parameter => u8 code ++ u16 parameter

/-- A reply as the port clocks it out: its header of four bytes, then its data (R193). -/
def Reply.bytes (r : Reply) : List Byte :=
  u8 r.length ++ [r.kind] ++ u8 r.result.code
    ++ u8 ((if r.clamped then 1 else 0) + (if r.earlierLost then 2 else 0)) ++ r.data

/-- The bytes that a port clocks out in a transaction of n bytes: the reply fixed at its assertion, then zeros (R174). -/
def PortState.clockedBytes (ps : PortState) (n : Nat) : List Byte :=
  let r := match ps.transfer.reply with
    | some r => r.bytes
    | none => []
  (r ++ List.replicate n 0#8).take n

/-- An event record as read (spec/12). -/
def EventRecord.bytes (r : EventRecord) : List Byte :=
  u8 r.kind.code ++ u24 r.m ++ u8 r.second ++ u8 r.subject.code ++ u16 r.number ++ u16 r.detail

/-- A journal entry as read (spec/12). -/
def JournalEntry.bytes (e : JournalEntry) : List Byte :=
  u8 e.kind.code ++ u16 e.showing ++ u16 e.count ++ u16 e.sold ++ u16 e.held ++ u24 e.m ++ u8 e.second

/-! ### Fields of requests -/

/-- The board minute that a relative time names against the business-day base D0 (R47); it may lie below 0. -/
def boardMinute (d0 : Int) (r : RelTime) : Int := d0 + 1440 * (r.day.toNat : Int) + (r.minute.toNat : Int)

/-- A minute of the business day above 1439 is MALFORMED (R47). -/
def minuteBad (r : RelTime) : Bool := 1439 < r.minute.toNat

/-- A relative day above 2 is refused HORIZON (R47). -/
def dayFar (r : RelTime) : Bool := 2 < r.day.toNat

/-- A test on a field that may be absent: it passes where the field is absent. -/
def ifPresent {α : Type} (test : α → Bool) : Option α → Bool
  | some x => test x
  | none => false

/-- A mark byte other than 0 and 1 is refused MALFORMED (R192). -/
def markBad (b : Byte) : Bool := 1 < b.toNat

/-- A panel set as sent: one with any of bits 12 to 15 set is refused MALFORMED (R192). -/
def panelSetBad (x : Half) : Bool := 4096 ≤ x.toNat

/-- The panels of a panel set as sent. -/
def panelSetOf (x : Half) : PanelSet := x.truncate 12

/-- Whether a clip number lies outside 1 to 4095. -/
def clipBad (x : Half) : Bool := x.toNat = 0 || 4095 < x.toNat

/-- Whether a text id lies outside 1 to 384. -/
def textBad (n : Nat) : Bool := n = 0 || 384 < n

/-- Whether an auditorium number lies outside 1 to 24. -/
def auditoriumBad (n : Nat) : Bool := n = 0 || 24 < n

/-- Whether a feature number lies outside 1 to 128. -/
def featureBad (n : Nat) : Bool := n = 0 || 128 < n

/-- Whether a carousel number lies outside 1 to 8. -/
def carouselBad (n : Nat) : Bool := n = 0 || 8 < n

/-- Whether a panel number lies outside 1 to 12. -/
def panelBad (n : Nat) : Bool := n = 0 || 12 < n

end Sys2Proof.Machine
end

