-- ==== Sys2Proof/Machine/Clock.lean ====
section
/-! DEFINITION. Calendar arithmetic: month lengths, weekdays, the wall minute, the business-day base and the lobby's hours
(R1, R5, R11). -/

namespace Sys2Proof.Machine

/-- A leap year is divisible by 4 (R1). -/
def leapYear (y : Nat) : Bool := y % 4 = 0

/-- The length of a month (R1). -/
def monthLength (y m : Nat) : Nat :=
  if m = 2 then (if leapYear y then 29 else 28)
  else if m = 4 ∨ m = 6 ∨ m = 9 ∨ m = 11 then 30
  else 31

/-- Days from 1 January 2000 to 1 January of a year from 2000 (R1). -/
def daysBeforeYear (y : Nat) : Nat := 365 * (y - 2000) + (y - 2000 + 3) / 4

/-- Days of a year before its months from 1 to m. -/
def daysBeforeMonth (y : Nat) : Nat → Nat
  | 0 => 0
  | m + 1 => daysBeforeMonth y m + monthLength y (m + 1)

/-- Days from 1 January 2000 to a date (R1). -/
def dayNumber (y m d : Nat) : Nat := daysBeforeYear y + daysBeforeMonth y (m - 1) + (d - 1)

/-- The weekday of a date, 1 Monday to 7 Sunday (R1). -/
def weekdayOf (y m d : Nat) : Nat := (dayNumber y m d + 5) % 7 + 1

/-- The calendar's weekday, derived from its date (R1). -/
def Calendar.weekday (c : Calendar) : Nat := weekdayOf c.year c.month c.day

/-- The wall minute of day (spec/01). -/
def Calendar.wall (c : Calendar) : Nat := c.hour * 60 + c.minute

/-- The date after a date; the year after 2099 is 2000 (R1). -/
def nextDate (y m d : Nat) : Nat × Nat × Nat :=
  if d < monthLength y m then (y, m, d + 1)
  else if m < 12 then (y, m + 1, 1)
  else if y < 2099 then (y + 1, 1, 1)
  else (2000, 1, 1)

/-- The business-day base: the largest board minute not above M whose value modulo 1440 is 60 × H0, or 60 × H0 - 1440 where
there is none (R5). -/
def businessBase (m h0 : Nat) : Int :=
  if 60 * h0 ≤ m then (((m - 60 * h0) / 1440 * 1440 + 60 * h0 : Nat) : Int) else 60 * (h0 : Int) - 1440

/-- Whether w lies in [from, to) taken circularly (spec/00_scope.md, R11). -/
def inWindow (lo hi w : Nat) : Bool :=
  if lo < hi then decide (lo ≤ w ∧ w < hi) else decide (hi < lo ∧ (lo ≤ w ∨ w < hi))

/-- Whether the lobby is closed at wall minute w (R11). -/
def lobbyClosed (openMin closeMin w : Nat) : Bool := decide (openMin ≠ closeMin) && !inWindow openMin closeMin w

/-- Whether a second field, minute, hour and date make a real calendar instant (R7 check 1). -/
def realInstant (f : TimeFields) : Bool :=
  decide (2000 ≤ f.year.toNat ∧ f.year.toNat ≤ 2099 ∧ 1 ≤ f.month.toNat ∧ f.month.toNat ≤ 12 ∧ 1 ≤ f.day.toNat
    ∧ f.day.toNat ≤ monthLength f.year.toNat f.month.toNat ∧ f.hour.toNat ≤ 23 ∧ f.minute.toNat ≤ 59 ∧ f.second.toNat ≤ 59)

/-- What a second event's carry comes to (R3, R4). -/
inductive Carry where
  /-- The second field did not carry, or the carry is no minute event: the clock is UNSET or M is held. -/
  | none
  /-- A minute event. -/
  | minute
  /-- M could not advance: the held mark becomes set. -/
  | limit
  deriving DecidableEq, Repr

/-- The calendar's date and time one minute on, the second field at 0 (R1). -/
def Calendar.nextMinute (c : Calendar) : Calendar :=
  if c.minute < 59 then { c with minute := c.minute + 1, second := 0 }
  else if c.hour < 23 then { c with hour := c.hour + 1, minute := 0, second := 0 }
  else
    let d := nextDate c.year c.month c.day
    { c with year := d.1, month := d.2.1, day := d.2.2, hour := 0, minute := 0, second := 0 }

/-- The calendar at a second event (R1 to R4). -/
def Calendar.tick (c : Calendar) : Calendar × Carry :=
  if c.second < 59 then ({ c with second := c.second + 1 }, .none)
  else
    match c.clock with
    | .unset => ({ c with second := 0 }, .none)
    | .running =>
      let n := c.nextMinute
      if c.held then (n, .none)
      else if c.m < Config.limitM then ({ n with m := c.m + 1 }, .minute)
      else ({ n with held := true }, .limit)

/-- The calendar with a date and time given by SET TIME (R8 to R10). -/
def Calendar.setInstant (f : TimeFields) (c : Calendar) : Calendar :=
  { c with year := f.year.toNat, month := f.month.toNat, day := f.day.toNat, hour := f.hour.toNat, minute := f.minute.toNat,
           second := f.second.toNat }

/-- The delta of a SET TIME in minutes; the seconds take no part (R7). -/
def Calendar.delta (f : TimeFields) (c : Calendar) : Int :=
  ((dayNumber f.year.toNat f.month.toNat f.day.toNat : Int) - (dayNumber c.year c.month c.day : Int)) * 1440
    + ((f.hour.toNat * 60 + f.minute.toNat : Nat) : Int) - (c.wall : Int)

/-- The weekday k days before a weekday. -/
def weekdayBack (w k : Nat) : Nat := (w + 6 - k % 7) % 7 + 1

/-- The calendar fields of a reply: year, month, day, weekday, hour, minute, second (spec/12). -/
def Calendar.data (c : Calendar) : List Byte :=
  u16 c.year ++ u8 c.month ++ u8 c.day ++ u8 c.weekday ++ u8 c.hour ++ u8 c.minute ++ u8 c.second

end Sys2Proof.Machine
end

