-- ==== Sys2Proof/Machine/Flags.lean ====
section
/-! DEFINITION. The availability figure: every stage of it as integer arithmetic on a showing's counts (spec/05), and the
oversold mark (R61). -/

namespace Sys2Proof.Machine

/-- The effective start E (R35). -/
def Showing.effective (x : Showing) : Nat := x.start + x.delay

/-- The wall start (R35). -/
def Showing.wallStart (x : Showing) : Nat := x.start % Config.dayMinutes

/-- The end minute (R35). -/
def Showing.endMinute (x : Showing) : Nat := x.effective + x.runtime

/-- Seats left L = max(0, C - S - H) (R86). -/
def seatsLeft (c s h : Nat) : Nat := c - (s + h)

/-- Occupancy Q in per-mille (R86). -/
def occupancy (c s h : Nat) : Nat := if c = 0 then 1000 else min 1000 (1000 * (s + h) / c)

/-- Seats left of a showing as its record stands. -/
def Showing.left (x : Showing) : Nat := seatsLeft x.cap x.sold x.held

/-- The excess S + H - C, 0 where the showing is not oversold (R61). -/
def Showing.excess (x : Showing) : Nat := x.sold + x.held - x.cap

/-- The band target for the thresholds a and b (R87). -/
def bandTarget (a b k l q : Nat) : Band :=
  if l = 0 then .full
  else if b ≤ q ∨ l ≤ k then .few
  else if a ≤ q then .filling
  else .opn

/-- The rising target t_up (R87). -/
def risingTarget (f : FigureSettings) (c s h : Nat) : Band := bandTarget f.f1 f.f2 f.k (seatsLeft c s h) (occupancy c s h)

/-- The falling target t_down: both thresholds lowered by W, not below 0 (R87). -/
def fallingTarget (f : FigureSettings) (c s h : Nat) : Band :=
  bandTarget (f.f1 - f.w) (f.f2 - f.w) f.k (seatsLeft c s h) (occupancy c s h)

/-- One move of the band from its current value (R88); the codes follow the order from emptiest to fullest (R87). -/
def moveBand (up down b : Band) : Band :=
  if b.code < up.code then up else if down.code < b.code then down else b

/-- The band recomputed from a showing's figures (R88). -/
def Showing.nextBand (f : FigureSettings) (x : Showing) : Band :=
  moveBand (risingTarget f x.cap x.sold x.held) (fallingTarget f x.cap x.sold x.held) x.band

/-- Pace after one minute event (R90). -/
def nextPace (pace tally : Nat) : Nat := pace - pace / 8 + 2 * tally

/-- The states whose pace a minute event updates (R90). -/
def ShowState.paceState : ShowState → Bool
  | .onSale | .seating | .started => true
  | .planned | .closed | .ended | .cancelled => false

/-- Minutes to effective start, not below 0 (R92). -/
def Showing.minutesLeft (m : Nat) (x : Showing) : Nat := x.effective - m

/-- The fast flag (R92): the division is made only with a pace of 16 or above. -/
def Showing.nextFast (m : Nat) (x : Showing) : Bool :=
  match x.state with
  | .onSale | .seating => decide (0 < x.left ∧ 16 ≤ x.pace ∧ 16 * x.left / x.pace ≤ x.minutesLeft m)
  | .planned | .started | .closed | .ended | .cancelled => false

/-- The displayed count D (R94). -/
def displayed (dc l : Nat) : Nat := min l dc

/-- The more mark (R94). -/
def moreMark (dc l : Nat) : Bool := decide (dc < l)

/-- A record with its band, oversold mark and fast flag recomputed from its counts, in that order of stages (R60, R95). -/
def Showing.inLine (f : FigureSettings) (m : Nat) (x : Showing) : Showing :=
  let y := { x with band := x.nextBand f, oversold := decide (x.cap < x.sold + x.held) }
  { y with fast := y.nextFast m }

/-- A record at a minute event: pace where its state is a pace state, the tally zeroed, then the fast flag (R90, R93). -/
def Showing.atMinute (m : Nat) (x : Showing) : Showing :=
  let y := { x with pace := if x.state.paceState then nextPace x.pace x.tally else x.pace, tally := 0 }
  { y with fast := y.nextFast m }

/-- The change of a showing's counts by a seat arrival: the counts change, the rest of the record is brought into line, and
OVERSOLD (where the excess grew) and then BAND (where the band changed) are raised (R60, R61, R89). -/
def changeSeats (g : Source) (id : Nat) (f : Showing → Showing) (s : State) : State :=
  match s.showing? id with
  | none => s
  | some x =>
    let y := (f x).inLine s.figure s.cal.m
    let t := s.modShowing id fun _ => y
    let t := if x.excess < y.excess then raise g .oversold id y.excess t else t
    if y.band ≠ x.band then raise g .band id y.band.code t else t

/-- The fast flag of one showing recomputed (R93). -/
def recomputeFast (id : Nat) (s : State) : State := s.modShowing id fun x => { x with fast := x.nextFast s.cal.m }

end Sys2Proof.Machine
end

