-- ==== Sys2Proof/Machine/Zones.lean ====
section
/-! DEFINITION. The trailer zone of a panel, the play the Carousel Unit keeps about it, and what ends it: outcomes, stops,
lockstep rounds, membership and hush (spec/07, spec/08). -/

namespace Sys2Proof.Machine

/-- Whether a head is LIVE or DEGRADED. -/
def HeadState.present : HeadState → Bool
  | .live | .degraded => true
  | .absent | .seeking | .lost => false

/-- Whether a panel is a member of carousel k (R128). -/
def State.member (s : State) (k p : Nat) : Bool :=
  decide (k ≠ 0) && (s.panel p).profile.carousel == k && (s.link p).head.present && (s.link p).zonePresent == some true
    && !(s.panel p).hushed && (s.takeover p).isNone

/-- The members of carousel k. -/
def State.members (s : State) (k : Nat) : PanelSet := setOf (s.member k)

/-- The cursor moved past an entry reference: to the position plus 1, or to 0 where that equals the count; where the reference
is none it stays (R129, R131). -/
def pastEntry (ref : Option Nat) (count cursor : Nat) : Nat :=
  match ref with
  | some r => if r + 1 = count then 0 else r + 1
  | none => cursor

/-- A carousel whose round panel p leaves: when the pending set becomes empty the round ends and the cursor moves past the
round's entry (R131). -/
def Carousel.leaveRound (p : Nat) (c : Carousel) : Carousel :=
  match c.round with
  | none => c
  | some r =>
    let pending := dropFromSet r.pending p
    if pending = 0 then { c with round := none, cursor := pastEntry r.ref c.ring.length c.cursor }
    else { c with round := some { r with pending } }

/-- The outcome of a play (R120). -/
inductive PlayOutcome where
  | completed | fault | cueTimeout | playTimeout | stop
  deriving DecidableEq, Repr

/-- What a FAULT changes in an entry that the play's reference still names, and the outcome code (R133). -/
def Entry.afterFault (kind : ClipKind) (e : Entry) : Entry × Nat :=
  match kind with
  | .primary =>
    match e.alternate with
    | some _ => if e.usingAlternate then (e, 0) else ({ e with usingAlternate := true }, 1)
    | none => ({ e with disabled := true }, 2)
  | .alternate => if e.disabled then (e, 0) else ({ e with disabled := true }, 2)
  | .fallback => (e, 0)

/-- What a FAULT changes in the play's carousel, and the outcome code (R133). -/
def Carousel.afterFault (r : Play) (c : Carousel) : Carousel × Nat :=
  match r.source with
  | .fallback =>
    if c.fallback = some r.clip ∧ c.usable = true then ({ c with usable := false }, 3) else (c, 0)
  | .entry =>
    match r.ref with
    | none => (c, 0)
    | some i =>
      match c.ring[i]? with
      | none => (c, 0)
      | some e => ({ c with ring := c.ring.set i (e.afterFault r.kind).1 }, (e.afterFault r.kind).2)

/-- The outcome of panel p's play handed to the Carousel Unit: the record is discarded, the outcome has its effect, and a
panel of a round leaves the pending set (R131, R132, R133). -/
def handOutcome (p : Nat) (o : PlayOutcome) (s : State) : State :=
  match s.play? p with
  | none => s
  | some r =>
    let s := s.setPlay p none
    let s := match o with
      | .completed => s
      | .stop => s
      | .fault =>
        let changed := (s.carousel r.carousel).afterFault r
        raise (.play p) .clipFault r.carousel (r.clip + 4096 * changed.2) (s.modCarousel r.carousel fun _ => changed.1)
      | .cueTimeout => raise (.play p) .clipTimeout p r.clip s
      | .playTimeout => raise (.play p) .clipTimeout p (r.clip + 4096) s
    if r.roundMark then s.modCarousel r.carousel (Carousel.leaveRound p) else s

/-- The zone of panel p returned to IDLE with its cue and deadline removed. -/
def clearZone (p : Nat) (s : State) : State := s.modPanel p fun c => { c with zone := .idle }

/-- A CUED or PLAYING zone returned to IDLE, its outcome handed to the Carousel Unit (R149, R150, R151). One that is IDLE is
left alone. -/
def endPlay (p : Nat) (o : PlayOutcome) (s : State) : State :=
  match (s.panel p).zone with
  | .idle => s
  | .cued _ _ => handOutcome p o (clearZone p s)
  | .playing _ _ => handOutcome p o (clearZone p s)

/-- A stop (R151). -/
def stopZone (p : Nat) (s : State) : State := endPlay p .stop s

/-- The membership of a panel judged at a hand-off: losing it ends the panel's part in any play (R128). -/
def judgeMember (p : Nat) (s : State) : State :=
  match s.play? p with
  | none => s
  | some r => if s.member r.carousel p then s else stopZone p s

/-- Whether a panel is to be hushed (R146). -/
def State.hushDue (s : State) (p : Nat) : Bool :=
  s.cal.hush && !s.cal.wake && !(s.panel p).profile.alwaysLit && (s.takeover p).isNone

/-- The hushed mark of a panel re-judged: setting it stops the zone, and the panel is handed to the Carousel Unit (R146). -/
def judgeHush (p : Nat) (s : State) : State :=
  let due := s.hushDue p
  let t := s.modPanel p fun c => { c with hushed := due }
  judgeMember p (if due then stopZone p t else t)

/-- The hushed mark of every panel re-judged (R146). -/
def judgeHushAll (s : State) : State := panelNumbers.foldl (fun t p => judgeHush p t) s

/-- A cue given to a panel by the Carousel Unit: the play record is made, and the zone is CUED under the next token (R120,
R148). -/
def cuePanel (r : Play) (p : Nat) (s : State) : State :=
  let token := if (s.panel p).lastToken = 255 then 1 else (s.panel p).lastToken + 1
  (s.modPanel p fun c => { c with lastToken := token, zone := .cued { clip := r.clip, length := r.length, token } none }).setPlay
    p (some r)

end Sys2Proof.Machine
end

