-- ==== Sys2Proof/Machine/Notices.lean ====
section
/-! DEFINITION. The Notice Unit: the takeover table, the creation, activation, expiry and retirement of notices, the system
DELAYED notice, the flash tick and the notice requests (spec/06). -/

namespace Sys2Proof.Machine

/-! ### The table, the activation list and the takeover table -/

/-- Whether a notice's scope contains panel p: the empty set means every panel (R103). -/
def Notice.covers (n : Notice) (p : Nat) : Bool := n.scope = 0 || inSet n.scope p

/-- The newest ACTIVE ALERT whose scope contains panel p (R114). -/
def State.takeoverDue (s : State) (p : Nat) : Option Nat :=
  s.notices.activation.reverse.find? fun id =>
    match s.notice? id with
    | some n => n.cls == .alert && n.covers p
    | none => false

/-- The hand-off of a panel whose takeover entry changes from none to a notice or from a notice to none (R114, R145). -/
def takeoverChange (before : Option Nat) (p : Nat) (s : State) : State :=
  match before, s.takeover p with
  | none, some _ => judgeHush p (stopZone p s)
  | some _, none => judgeHush p s
  | none, none => s
  | some _, some _ => s

/-- The takeover table judged again, and the panels whose entry changed to or from none handed over (R114). -/
def judgeTakeover (s : State) : State :=
  let entries := panelNumbers.map s.takeoverDue
  let t := { s with notices := { s.notices with takeover := entries } }
  panelNumbers.foldl (fun t p => takeoverChange (s.takeover p) p t) t

/-- NOTICE STATE details (R115). -/
def noticePending : Nat := 0
def noticeActive : Nat := 1
def noticeUpdated : Nat := 2
def noticeExpired : Nat := 3
def noticeWithdrawn : Nat := 4
def noticeRetired : Nat := 5
def noticeDisplaced : Nat := 6

/-- Notices freed: they leave the table and the activation list (R100, R101). -/
def freeNotices (ids : List Nat) (s : State) : State :=
  { s with notices :=
      { s.notices with
        table := s.notices.table.filter fun n => !ids.contains n.id
        activation := s.notices.activation.filter fun i => !ids.contains i } }

/-- One NOTICE STATE record for each notice of a list, in its order. -/
def raiseNotices (g : Source) (detail : Nat) (ids : List Nat) (s : State) : State :=
  ids.foldl (fun t id => raise g .noticeState id detail t) s

/-- Notices retired at one arrival of a showing: their records stand in any order (R110), and the takeover table is judged. -/
def retireNotices (g : Source) (ids : List Nat) (s : State) : State :=
  if ids.isEmpty then s
  else
    let ordered := anyOrder s.choice Source.notice ids
    judgeTakeover (freeNotices ids (raiseNotices g noticeRetired ordered { s with choice := s.choice + ids.length }))

/-- The live notices linked to a showing. -/
def State.linkedNotices (s : State) (id : Nat) : List Nat :=
  (s.notices.table.filter fun n => n.link == some id).map Notice.id

/-- The showing's live system DELAYED notice (R111). -/
def State.delayedNotice (s : State) (id : Nat) : Option Notice :=
  s.notices.table.find? fun n => n.system && n.link == some id

/-- The showing's system DELAYED notice retired, if one is live (R110, R112). -/
def retireDelayed (g : Source) (id : Nat) (s : State) : State :=
  match s.delayedNotice id with
  | some n => retireNotices g [n.id] s
  | none => s

/-- The highest id from 255 downward that is not live (R111). -/
def State.freeNoticeId (s : State) : Option Nat :=
  ((List.range 255).reverse.map fun i => i + 1).find? fun i => !hasKey Notice.id i s.notices.table

/-- The DELAYED notice of a showing as R111 creates it. -/
def delayedRecord (s : State) (notice showing delay : Nat) : Notice :=
  { id := notice, cls := .showing, content := .system 1 delay, scope := 0, link := some showing, activation := none,
    expiry := none, flash := none, state := .active, instant := some { m := s.cal.m, second := s.cal.second },
    position := none, system := true }

/-- A record put into the table; an ACTIVE one joins the end of the activation list (R101). -/
def addNotice (n : Notice) (s : State) : State :=
  { s with notices :=
      { s.notices with
        table := insertKey Notice.id n s.notices.table
        activation := match n.state with
          | .active => s.notices.activation ++ [n.id]
          | .pending => s.notices.activation } }

/-- The system DELAYED notice created for a showing, or the no-notice mark where the table has no free place or no free id
(R111). -/
def createDelayed (id delay : Nat) (s : State) : State × Bool :=
  match s.freeNoticeId with
  | some i =>
    if s.notices.table.length < Config.noticePlaces then
      (raise (.showing id) .noticeState i noticeActive (addNotice (delayedRecord s i id delay) s), false)
    else (s, true)
  | none => (s, true)

/-- What the Notice Unit does for a DELAY or a PUBLISH with a delay (R54 step 4, R111, R112). The Bool is the no-notice mark. -/
def noticeForDelay (id delay : Nat) (s : State) : State × Bool :=
  if delay = 0 then (retireDelayed (.showing id) id s, false)
  else
    match s.delayedNotice id with
    | some n =>
      (raise (.showing id) .noticeState n.id noticeUpdated
        { s with notices :=
            { s.notices with table := modKey Notice.id n.id (fun x => { x with content := .system 1 delay }) s.notices.table } },
       false)
    | none => createDelayed id delay s

/-! ### The minute event and the flash tick -/

/-- Whether a PENDING notice is to be activated at M (R107). -/
def Notice.activationDue (m : Nat) (n : Notice) : Bool :=
  n.state == .pending && match n.activation with
    | some a => decide (a ≤ m)
    | none => true

/-- Whether a live notice is to expire at M (R108). -/
def Notice.expiryDue (m : Nat) (n : Notice) : Bool :=
  match n.expiry with
  | some e => decide (e ≤ m)
  | none => false

/-- A notice made ACTIVE: its instant is now, and its flash position 0 (R107). -/
def Notice.activate (m second : Nat) (n : Notice) : Notice :=
  { n with state := .active, instant := some { m, second }, position := n.flash.map fun _ => 0 }

/-- The Notice Unit's minute event: activations, then expiries (R107, R108). The takeover table is judged with what was activated and
again with what has expired: a panel passes from one ALERT to another with no hand-off between (R114), and the takeover of an ALERT that
is activated and expires at this event begins and ends (R108). The records of a notice have the source given for it. -/
def noticeMinute (source : Notice → Source) (s : State) : State :=
  let m := s.cal.m
  let activated := s.notices.table.filter (Notice.activationDue m)
  let table := s.notices.table.map fun n => if n.activationDue m then n.activate m s.cal.second else n
  let expired := table.filter (Notice.expiryDue m)
  let t := { s with notices := { s.notices with table, activation := s.notices.activation ++ activated.map Notice.id } }
  let t := activated.foldl (fun t n => raise (source n) .noticeState n.id noticeActive t) t
  let t := expired.foldl (fun t n => raise (source n) .noticeState n.id noticeExpired t) t
  judgeTakeover (freeNotices (expired.map Notice.id) (judgeTakeover t))

/-- A notice at a flash tick: an ACTIVE one with flash advances its position, and a + b becomes 0 (R113). -/
def Notice.tick (n : Notice) : Notice :=
  match n.flash, n.position with
  | some (a, b), some p => if n.state = .active then { n with position := some (if p + 1 < a + b then p + 1 else 0) } else n
  | some _, none => n
  | none, _ => n

/-- Whether a notice is ON: below the on-hold, or without flash (R113). -/
def Notice.on (n : Notice) : Bool :=
  match n.flash, n.position with
  | some (a, _), some p => decide (p < a)
  | some _, none => true
  | none, _ => true

/-- FLASH_TICK: the core clock reaches the next flash tick, and every ACTIVE flashing notice advances. No tick runs before the
release of a reset (R113). -/
def execFlashTick (s : State) : Host.Outcome State Fault Refusal :=
  .next <|
    match s.core.nextTick with
    | none => s
    | some n =>
      { s with
        core := { now := max s.core.now n, nextTick := some (n + 100) }
        notices := { s.notices with table := s.notices.table.map Notice.tick } }

/-! ### POST NOTICE -/

/-- The class a byte names (R100). -/
def noticeClass (b : Byte) : NoticeClass :=
  if b.toNat = 0 then .info else if b.toNat = 1 then .showing else if b.toNat = 2 then .desk else .alert

/-- The content of POST NOTICE: selector 0 is a text, others a system code (spec/12). -/
def noticeContent (f : NoticeFields) : Content :=
  if f.selector.toNat = 0 then .text f.value.toNat else .system f.selector.toNat f.value.toNat

/-- Check 1 of R104, with the form checks of R192. -/
def noticeMalformed (f : NoticeFields) : Bool :=
  f.spare != 0 || f.id.toNat = 0 || 3 < f.cls.toNat || f.selector.toNat = 1 || 31 < f.selector.toNat
    || (f.selector.toNat = 0 && textBad f.value.toNat) || ifPresent panelSetBad f.scope
    || ifPresent (fun l => l.toNat = 0) f.link || ifPresent minuteBad f.activation || ifPresent minuteBad f.expiry
    || (f.cls.toNat = 1 && f.link.isNone)

/-- The board minutes of the activation and the expiry (R47). -/
def noticeMinutes (d0 : Int) (f : NoticeFields) : Option Int × Option Int :=
  (f.activation.map (boardMinute d0), f.expiry.map (boardMinute d0))

/-- The text a content names is present; a system code names none (R102). -/
def State.contentPresent (s : State) : Content → Bool
  | .text id => (s.text id).present
  | .system _ _ => true

/-- The lowest class among the live notices. -/
def State.lowestClass (s : State) : Nat := s.notices.table.foldl (fun c n => min c n.cls.code) 3

/-- The older of two PENDING notices of ascending ids: the lower activation minute, then the lower id (R106). -/
def olderPending (x : Option Notice) (y : Notice) : Option Notice :=
  match x with
  | none => some y
  | some n => if y.activation.getD 0 < n.activation.getD 0 then some y else some n

/-- The notice that an ALERT displaces in a full table: of the lowest class present, the oldest activation; none where every
notice is an ALERT (R106). -/
def State.displaceable (s : State) : Option Notice :=
  if s.lowestClass = 3 then none
  else
    let inClass := s.notices.table.filter fun n => n.cls.code = s.lowestClass
    match s.notices.activation.findSome? fun id => findKey Notice.id id inClass with
    | some n => some n
    | none => (inClass.filter fun n => n.state == .pending).foldl olderPending none

/-- Where a POST NOTICE finds its place: a free one, one displaced, or none (R104 check 9, R106). -/
inductive Place where
  | free
  | displaced (n : Notice)
  | full
  deriving DecidableEq, Repr

def State.placeFor (s : State) (cls : NoticeClass) : Place :=
  if s.notices.table.length < Config.noticePlaces then .free
  else
    match cls, s.displaceable with
    | .alert, some n => .displaced n
    | .alert, none => .full
    | .info, _ => .full
    | .showing, _ => .full
    | .desk, _ => .full

/-- The checks of R104 in their order; none where the request passes them. -/
def State.postRefusal (s : State) (f : NoticeFields) : Option Result :=
  if noticeMalformed f then some .malformed
  else if (f.activation.isSome || f.expiry.isSome) && s.cal.clock == .unset then some .unset
  else if ifPresent dayFar f.activation || ifPresent dayFar f.expiry then some .horizon
  else if hasKey Notice.id f.id.toNat s.notices.table then some .exists
  else if !s.contentPresent (noticeContent f) then some .unknown
  else if ifPresent (fun l => (s.showing? l.toNat).isNone) f.link then some .unknown
  else if ifPresent (fun l => ((s.showing? l.toNat).map Showing.state) == some .ended) f.link then some .state
  else if ifPresent (fun e => decide (e ≤ (s.cal.m : Int))) (noticeMinutes s.cal.d0 f).2 then some .past
  else
    match noticeMinutes s.cal.d0 f with
    | (some a, some e) => if e ≤ a then some .malformed else if s.placeFor (noticeClass f.cls) = .full then some .full else none
    | _ => if s.placeFor (noticeClass f.cls) = .full then some .full else none

/-- An on-hold or off-hold pulled into 1 to 50 (R104). -/
def flashHold (b : Byte) : Nat := clamp 1 50 b.toNat

/-- The flash as stored, and whether a hold was clamped. -/
def flashHolds (f : NoticeFields) : Option (Nat × Nat) := f.flash.map fun x => (flashHold x.1, flashHold x.2)
def flashClamped (f : NoticeFields) : Bool :=
  ifPresent (fun x : Byte × Byte => flashHold x.1 != x.1.toNat || flashHold x.2 != x.2.toNat) f.flash

/-- The record that a POST NOTICE creates (R105): ACTIVE where its activation is absent or at or below M. -/
def State.postedNotice (s : State) (f : NoticeFields) : Notice :=
  let minutes := noticeMinutes s.cal.d0 f
  let waits := ifPresent (fun a => decide ((s.cal.m : Int) < a)) minutes.1
  { id := f.id.toNat, cls := noticeClass f.cls, content := (noticeContent f),
    scope := match f.scope with
      | some x => panelSetOf x
      | none => 0
    link := f.link.map BitVec.toNat, activation := minutes.1.map Int.toNat, expiry := minutes.2.map Int.toNat,
    flash := (flashHolds f), state := if waits then .pending else .active,
    instant := if waits then none else some { m := s.cal.m, second := s.cal.second },
    position := if waits then none else (flashHolds f).map fun _ => 0, system := false }

/-- POST NOTICE carried out (R105, R106). -/
def postNotice (f : NoticeFields) (s : State) : Answer × State :=
  match s.postRefusal f with
  | some r => (refuse r, s)
  | none =>
    let n := s.postedNotice f
    let g := Source.notice n.id
    let freed := match s.placeFor n.cls with
      | .displaced d => some d.id
      | .free => none
      | .full => none
    let t := match freed with
      | some i => raise g .noticeState i noticeDisplaced (freeNotices [i] s)
      | none => s
    let t := raise g .noticeState n.id (match n.state with
      | .active => noticeActive
      | .pending => noticePending) (addNotice n t)
    (done (flashClamped f)
      (u8 n.id ++ u8 n.state.code ++ minuteOrAbsent n.activation ++ minuteOrAbsent n.expiry ++ idOrNone freed),
     judgeTakeover t)

/-- POST NOTICE (R104, R105, R106). -/
def execPostNotice (t : Txn) (f : NoticeFields) (s : State) : Host.Outcome State Fault Refusal :=
  .next (request t ((Wire.noticeBytes f).length + 2) 64 [.desk, .service] (postNotice f) s)

/-! ### WITHDRAW NOTICE and QUERY NOTICE -/

/-- WITHDRAW NOTICE carried out (R109). -/
def withdrawNotice (id : Nat) (s : State) : Answer × State :=
  if id = 0 then (refuse .malformed, s)
  else
    match s.notice? id with
    | none => (refuse .unknown, s)
    | some n =>
      (done false (u8 id ++ u8 n.state.code),
       judgeTakeover (freeNotices [id] (raise (.notice id) .noticeState id noticeWithdrawn s)))

/-- WITHDRAW NOTICE (R109). -/
def execWithdrawNotice (t : Txn) (id : Byte) (s : State) : Host.Outcome State Fault Refusal :=
  .next (request t 3 65 [.desk, .service] (withdrawNotice id.toNat) s)

/-- The place of a notice in the activation list, counted from 1 for the oldest, 0 when PENDING (R116). -/
def State.activationPlace (s : State) (id : Nat) : Nat :=
  if s.notices.activation.contains id then s.notices.activation.findIdx (· == id) + 1 else 0

/-- The data of QUERY NOTICE for one notice (R116). An absent instant is sent as an absent board minute and second 0, an absent
position as 0: PRESUMED, log 16. -/
def State.noticeData (s : State) (n : Notice) : List Byte :=
  u8 n.id ++ u8 n.cls.code ++ contentBytes n.content ++ panelSetBytes n.scope ++ wideOrNone n.link
    ++ minuteOrAbsent n.activation ++ minuteOrAbsent n.expiry
    ++ (match n.flash with
      | some (a, b) => u8 a ++ u8 b
      | none => u8 0 ++ u8 0)
    ++ u8 n.state.code
    ++ (match n.instant with
      | some i => u24 i.m ++ u8 i.second
      | none => minuteOrAbsent none ++ u8 0)
    ++ idOrNone n.position ++ mark n.system ++ u8 (s.activationPlace n.id)

/-- The data of QUERY NOTICE with id 0: the number of live notices, their ids in activation-list order and then the PENDING ones
in ascending id, and the takeover table (R116, R193). The number is the list's count byte: DEDUCED, log 17. -/
def State.noticeTableData (s : State) : List Byte :=
  let waiting := (s.notices.table.filter fun n => n.state == .pending).map Notice.id
  u8 s.notices.table.length ++ (s.notices.activation ++ waiting).flatMap u8
    ++ panelNumbers.flatMap fun p => idOrNone (s.takeover p)

/-- QUERY NOTICE carried out (R116). -/
def queryNotice (id : Nat) (s : State) : Answer × State :=
  if id = 0 then (done false s.noticeTableData, s)
  else
    match s.notice? id with
    | none => (refuse .unknown, s)
    | some n => (done false (s.noticeData n), s)

/-- QUERY NOTICE (R116). -/
def execQueryNotice (t : Txn) (id : Byte) (s : State) : Host.Outcome State Fault Refusal :=
  .next (request t 3 7 allRoles (queryNotice id.toNat) s)

end Sys2Proof.Machine
end

