-- ==== Sys2Proof/Machine/Seats.lean ====
section
/-! DEFINITION. The Seat Accounting Unit: the seat requests, the hold table, the sales watch's count and the seat journal
(spec/04). -/

namespace Sys2Proof.Machine

/-- Whether a showing is suspended: read from its auditorium (R23). -/
def State.suspended (s : State) (x : Showing) : Bool := (s.auditorium x.auditorium).state == .suspended

/-- A journal entry for a showing as its record stands, made now (R80). -/
def State.entryFor (s : State) (kind : JournalKind) (x : Showing) (count : Nat) : JournalEntry :=
  { kind, showing := x.id, count, sold := x.sold, held := x.held, m := s.cal.m, second := s.cal.second }

/-- An entry for a showing appended after the change it records (R79). -/
def journalShowing (g : Source) (kind : JournalKind) (id count : Nat) (s : State) : State :=
  match s.showing? id with
  | some x => journalize g (s.entryFor kind x count) s
  | none => s

/-- HOLD ENDED details (R75). -/
def endExpired : Nat := 1
def endClosed : Nat := 2
def endCancelled : Nat := 3
def endReleased : Nat := 4
def endConfirmed : Nat := 5

/-- The entries of holds ended one after another: each carries H after its own release (R74). -/
def endEntries (e : JournalEntry) : List Hold → List JournalEntry
  | [] => []
  | h :: l =>
    let e' := { e with count := h.count, held := e.held - h.count }
    e' :: endEntries e' l

/-- The counts of a list of holds, summed. -/
def holdSum (l : List Hold) : Nat := (l.map Hold.count).sum

/-- Holds of one showing ended at one arrival, by expiry or by a transition (R70, R74): each raises HOLD ENDED and appends its
entry, in any order; they leave the table and H decreases by their counts. The rest of the record is brought into line after the
last. -/
def endHolds (g : Source) (reason : Nat) (kind : JournalKind) (id : Nat) (ended : List Hold) (f : Showing → Showing)
    (s : State) : State :=
  match s.showing? id with
  | none => s
  | some x =>
    let ordered := anyOrder s.choice (fun h => Source.hold h.tag) ended
    let t := { s with
      choice := s.choice + ended.length
      holds := s.holds.filter fun h => !(ended.map Hold.tag).contains h.tag }
    let t := ordered.foldl (fun t h => raise g .holdEnded h.tag reason t) t
    let t := (endEntries (s.entryFor kind x 0) ordered).foldl (fun t e => journalize g e t) t
    changeSeats g id (fun y => f { y with held := y.held - holdSum ended }) t

/-- Every live hold naming a showing ended at its transition into CLOSED or CANCELLED, and its pace set to 0 (R74). -/
def releaseHolds (g : Source) (reason : Nat) (kind : JournalKind) (id : Nat) (s : State) : State :=
  endHolds g reason kind id (s.holds.filter fun h => h.showing == id) (fun y => { y with pace := 0 }) s

/-! ### Second events -/

/-- The remaining seconds of every live hold decreased by 1 (R70). -/
def countDown (s : State) : State := { s with holds := s.holds.map fun h => { h with remaining := h.remaining - 1 } }

/-- The holds whose remaining seconds have reached 0. -/
def State.expired (s : State) : List Hold := s.holds.filter fun h => h.remaining == 0

/-- The holds that have run out ended with reason EXPIRED, showing by showing; the records about a showing have the source
given for it (R70). Log 19. -/
def expireHolds (source : Nat → Source) (s : State) : State :=
  let ids := (s.showings.map Showing.id).filter fun id => s.expired.any fun h => h.showing == id
  ids.foldl
    (fun t id => endHolds (source id) endExpired .expire id (s.expired.filter fun h => h.showing == id) (fun y => y) t) s

/-- The sales watch at a second event: in CURRENT the count falls, and at 0 the state is STALE (R77). -/
def watchSecond (s : State) : State :=
  match s.watch.sales with
  | .stale => s
  | .current =>
    if s.watch.count ≤ 1 then
      raise .watch .salesStale 0 s.watch.period { s with watch := { s.watch with sales := .stale, count := 0 } }
    else { s with watch := { s.watch with count := s.watch.count - 1 } }

/-- The Seat Accounting Unit's minute event: pace, tally and fast flag of every live showing (R90, R93). -/
def paceMinute (s : State) : State := { s with showings := s.showings.map (Showing.atMinute s.cal.m) }

/-! ### Seat requests -/

/-- What every seat reply carries (R63, R86). R86 says that the seat replies report C and R63 does not list it: it is sent after the id,
where R86 has it, before S. DEDUCED, log 45. -/
def Showing.seatData (x : Showing) : List Byte :=
  u16 x.id ++ u16 x.cap ++ u16 x.sold ++ u16 x.held ++ u16 x.left ++ u8 x.band.code ++ mark x.fast ++ mark x.oversold

/-- The seat reply's common part as the record stands after the request (R63). -/
def State.seatData (s : State) (id : Nat) : List Byte :=
  match s.showing? id with
  | some x => x.seatData
  | none => []

/-- States in which SELL is taken (R64). -/
def ShowState.sells : ShowState → Bool
  | .onSale | .seating | .started | .closed => true
  | .planned | .ended | .cancelled => false

/-- States in which HOLD is taken (R68). -/
def ShowState.holds : ShowState → Bool
  | .onSale | .seating | .started => true
  | .planned | .closed | .ended | .cancelled => false

/-- The largest S (R59). -/
def soldMax : Nat := 2047

/-- The largest minute tally (R62). -/
def tallyMax : Nat := 255

/-- A seat change of one showing that journals after it (R60, R79). -/
def seatChange (kind : JournalKind) (id count : Nat) (f : Showing → Showing) (s : State) : State :=
  journalShowing (.seats id) kind id count (changeSeats (.seats id) id f s)

/-- Seats added to S by a sale: S saturates, and the tally rises by the seats added (R59, R64, R71). R62 says of a CONFIRM the seats
it confirmed, which are more where S saturates: DEDUCED, log 37. -/
def Showing.sell (n : Nat) (x : Showing) : Showing :=
  { x with sold := min soldMax (x.sold + n), tally := min tallyMax (x.tally + (min soldMax (x.sold + n) - x.sold)) }

/-- SELL carried out (R63, R64). -/
def sell (id n : Nat) (s : State) : Answer × State :=
  if id = 0 ∨ n = 0 then (refuse .malformed, s)
  else
    match s.showing? id with
    | none => (refuse .unknown, s)
    | some x =>
      if s.suspended x then (refuse .suspended, s)
      else if !x.state.sells then (refuse .state, s)
      else
        let added := min soldMax (x.sold + n) - x.sold
        let t := seatChange .sell id added (Showing.sell n) s
        (done (decide (added < n)) (t.seatData id ++ u8 added), t)

/-- SELL (R64). -/
def execSell (t : Txn) (id : Half) (count : Byte) (s : State) : Host.Outcome State Fault Refusal :=
  .next (request t 5 48 [.sales, .service] (sell id.toNat count.toNat) s)

/-- REFUND carried out (R65). -/
def refund (id n : Nat) (s : State) : Answer × State :=
  if id = 0 ∨ n = 0 then (refuse .malformed, s)
  else
    match s.showing? id with
    | none => (refuse .unknown, s)
    | some x =>
      let removed := min n x.sold
      let t := seatChange .refund id removed (fun y => { y with sold := y.sold - removed }) s
      (done (decide (removed < n)) (t.seatData id ++ u8 removed), t)

/-- REFUND (R65). -/
def execRefund (t : Txn) (id : Half) (count : Byte) (s : State) : Host.Outcome State Fault Refusal :=
  .next (request t 5 49 [.sales, .service] (refund id.toNat count.toNat) s)

/-- SNAPSHOT carried out (R66). -/
def snapshot (id v : Nat) (s : State) : Answer × State :=
  if id = 0 then (refuse .malformed, s)
  else
    match s.showing? id with
    | none => (refuse .unknown, s)
    | some _ =>
      let sold := min soldMax v
      let t := seatChange .snapshot id sold (fun y => { y with sold }) s
      (done (decide (soldMax < v)) (t.seatData id), t)

/-- SNAPSHOT (R66). -/
def execSnapshot (t : Txn) (id sold : Half) (s : State) : Host.Outcome State Fault Refusal :=
  .next (request t 6 50 [.sales, .service] (snapshot id.toNat sold.toNat) s)

/-- The checks of HOLD in their order (R63, R68); none where the request passes them. -/
def State.holdRefusal (s : State) (tag id n : Nat) : Option Result :=
  if tag = 0 ∨ id = 0 ∨ n = 0 then some .malformed
  else
    match s.showing? id with
    | none => some .unknown
    | some x =>
      if s.suspended x then some .suspended
      else if !x.state.holds then some .state
      else if hasKey Hold.tag tag s.holds then some .exists
      else if Config.holdPlaces ≤ s.holds.length then some .full
      else if x.left = 0 then some .noSeats
      else none

/-- HOLD carried out: the granted count is the smaller of the count and L (R69). -/
def holdSeats (tag id n life : Nat) (s : State) : Answer × State :=
  match s.holdRefusal tag id n with
  | some r => (refuse r, s)
  | none =>
    let granted := min n ((s.showing? id).elim 0 Showing.left)
    let remaining := clamp 30 1800 life
    let t := { s with holds := insertKey Hold.tag { tag, showing := id, count := granted, remaining } s.holds }
    let t := seatChange .hold id granted (fun y => { y with held := y.held + granted }) t
    (done (decide (granted < n ∨ remaining ≠ life)) (t.seatData id ++ u16 tag ++ u8 granted ++ u16 remaining), t)

/-- HOLD (R68, R69). -/
def execHold (t : Txn) (tag id : Half) (count : Byte) (lifetime : Half) (s : State) : Host.Outcome State Fault Refusal :=
  .next (request t 9 51 [.sales, .service] (holdSeats tag.toNat id.toNat count.toNat lifetime.toNat) s)

/-- A hold ended by CONFIRM or RELEASE: it leaves the table and raises HOLD ENDED (R71, R73, R75). -/
def dropHold (h : Hold) (reason : Nat) (s : State) : State :=
  raise (.seats h.showing) .holdEnded h.tag reason { s with holds := eraseKey Hold.tag h.tag s.holds }

/-- CONFIRM carried out: the confirmed seats are sold, and the whole hold leaves H (R71). -/
def confirm (tag n : Nat) (s : State) : Answer × State :=
  if tag = 0 ∨ n = 0 then (refuse .malformed, s)
  else
    match s.hold? tag with
    | none => (refuse .unknown, s)
    | some h =>
      let confirmed := min n h.count
      let room := (s.showing? h.showing).elim 0 fun x => soldMax - x.sold
      let t := seatChange .confirm h.showing confirmed (fun y => { Showing.sell confirmed y with held := y.held - h.count })
        (dropHold h endConfirmed s)
      (done (decide (confirmed < n ∨ room < confirmed)) (t.seatData h.showing ++ u8 confirmed ++ u8 (h.count - confirmed)), t)

/-- CONFIRM (R71). -/
def execConfirm (t : Txn) (tag : Half) (count : Byte) (s : State) : Host.Outcome State Fault Refusal :=
  .next (request t 5 52 [.sales, .service] (confirm tag.toNat count.toNat) s)

/-- RELEASE carried out (R73). -/
def releaseHold (tag : Nat) (s : State) : Answer × State :=
  if tag = 0 then (refuse .malformed, s)
  else
    match s.hold? tag with
    | none => (refuse .unknown, s)
    | some h =>
      let t := seatChange .release h.showing h.count (fun y => { y with held := y.held - h.count }) (dropHold h endReleased s)
      (done false (t.seatData h.showing ++ u8 h.count), t)

/-- RELEASE (R73). -/
def execRelease (t : Txn) (tag : Half) (s : State) : Host.Outcome State Fault Refusal :=
  .next (request t 4 53 [.sales, .service] (releaseHold tag.toNat) s)

/-- QUERY HOLD carried out (R76). -/
def queryHold (tag : Nat) (s : State) : Answer × State :=
  if tag = 0 then (refuse .malformed, s)
  else
    match s.hold? tag with
    | none => (refuse .unknown, s)
    | some h => (done false (u16 h.tag ++ u16 h.showing ++ u8 h.count ++ u16 h.remaining), s)

/-- QUERY HOLD (R76). -/
def execQueryHold (t : Txn) (tag : Half) (s : State) : Host.Outcome State Fault Refusal :=
  .next (request t 4 6 allRoles (queryHold tag.toNat) s)

/-! ### The seat journal -/

/-- READ JOURNAL carried out (R82). -/
def readJournal (start count : Nat) (s : State) : Answer × State :=
  if 127 < start then (refuse .malformed, s)
  else
    let entries := (s.journal.closed.drop start).take (min 10 count)
    (done (decide (10 < count))
      (u8 s.journal.closed.length ++ u8 start ++ u8 entries.length ++ entries.flatMap JournalEntry.bytes), s)

/-- READ JOURNAL (R82). -/
def execReadJournal (t : Txn) (start count : Byte) (s : State) : Host.Outcome State Fault Refusal :=
  .next (request t 4 54 [.desk, .service] (readJournal start.toNat count.toNat) s)

/-- SWAP JOURNAL carried out (R83). -/
def swapJournal (s : State) : Answer × State :=
  (done false (u8 s.journal.filling.length ++ u16 s.journal.dropped),
   { s with journal := { filling := [], closed := s.journal.filling, dropped := 0 } })

/-- SWAP JOURNAL (R83). -/
def execSwapJournal (t : Txn) (s : State) : Host.Outcome State Fault Refusal :=
  .next (request t 2 55 [.desk, .service] swapJournal s)

end Sys2Proof.Machine
end

