-- ==== Sys2Proof/Machine/Showings.lean ====
section
/-! DEFINITION. The Showing Table: the lifecycle and its effects, and the requests that act on a showing (spec/03). -/

namespace Sys2Proof.Machine

/-! ### The lifecycle -/

/-- What a record's state leads to when it is due (R38). -/
inductive Due where
  | enter (state : ShowState)
  | free
  deriving DecidableEq, Repr

/-- The transition of R38 that is due from a record's state at M, if one is. -/
def Showing.due (life : LifeSettings) (m : Nat) (x : Showing) : Option Due :=
  match x.state with
  | .planned =>
    match x.salesOpen with
    | some o => if o ≤ m then some (.enter .onSale) else none
    | none => some (.enter .onSale)
  | .onSale => if x.effective ≤ m + life.lead then some (.enter .seating) else none
  | .seating => if x.effective ≤ m then some (.enter .started) else none
  | .started => if x.effective + life.late ≤ m then some (.enter .closed) else none
  | .closed => if x.effective + x.runtime ≤ m then some (.enter .ended) else none
  | .ended =>
    match x.purge with
    | some d => if d ≤ m then some .free else none
    | none => none
  | .cancelled =>
    match x.purge with
    | some d => if d ≤ m then some .free else none
    | none => none

/-- A state entered: the record takes it, raises its SHOWING STATE, and its fast flag is recomputed (R40, R93). -/
def enterState (id : Nat) (st : ShowState) (s : State) : State :=
  recomputeFast id (raise (.showing id) .showingState id st.code (s.modShowing id fun x => { x with state := st }))

/-- A purge deadline, not above the largest board minute (R43, R45). -/
def purgeAt (m : Nat) : Nat := min Config.limitM m

/-- Every notice linked to a showing retired (R110). -/
def retireLinked (id : Nat) (s : State) : State := retireNotices (.showing id) (s.linkedNotices id) s

/-- A state entered with the effects of R41 to R43. What an effect raises, a retired notice's NOTICE STATE or the BAND of CLOSED, stands
before the records of a later transition: DEDUCED, log 40. -/
def transitionTo (id : Nat) (st : ShowState) (s : State) : State :=
  match st with
  | .planned => enterState id .planned s
  | .onSale => enterState id .onSale s
  | .seating => enterState id .seating s
  | .started => retireDelayed (.showing id) id (enterState id .started s)
  | .closed => releaseHolds (.showing id) endClosed .closeRelease id (enterState id .closed s)
  | .ended =>
    retireLinked id (enterState id .ended
      (s.modShowing id fun x => { x with purge := some (purgeAt (x.endMinute + s.life.linger)) }))
  | .cancelled => enterState id .cancelled s

/-- A record freed: SHOWING FREED, then its notices retired, then it stops being live (R44). -/
def freeShowing (x : Showing) (s : State) : State :=
  let t := retireLinked x.id (raise (.showing x.id) .showingFreed x.id x.state.code s)
  { t with showings := eraseKey Showing.id x.id t.showings }

/-- A record judged: it takes each due transition in turn (R38, R39). A record takes at most six. -/
def judgeShowing : Nat → Nat → State → State
  | 0, _, s => s
  | k + 1, id, s =>
    match s.showing? id with
    | none => s
    | some x =>
      match x.due s.life s.cal.m with
      | none => s
      | some (.enter st) => judgeShowing k id (transitionTo id st s)
      | some .free => freeShowing x s

/-- Steps enough for any record to come to rest: ON SALE, SEATING, STARTED, CLOSED, ENDED, freed. -/
def lifeSteps : Nat := 6

/-- Every live record judged (R39). -/
def judgeAll (s : State) : State := (s.showings.map Showing.id).foldl (fun t id => judgeShowing lifeSteps id t) s

/-- Whether a record that is judged at M comes to CLOSED (R38), so that its holds are released. -/
def Showing.comesToClosed (life : LifeSettings) (m : Nat) (x : Showing) : Bool :=
  match x.state with
  | .planned =>
    decide (x.salesOpen.getD 0 ≤ m ∧ x.effective + life.late ≤ m)
  | .onSale | .seating | .started => decide (x.effective + life.late ≤ m)
  | .closed | .ended | .cancelled => false

/-! ### Replies -/

/-- The reply data of QUERY SHOWING (R56). -/
def State.showingData (s : State) (x : Showing) : List Byte :=
  u16 x.id ++ u8 x.auditorium ++ u8 x.feature ++ u8 x.format
    ++ u24 x.start ++ u16 x.wallStart ++ u8 x.delay ++ u24 x.effective
    ++ u16 x.runtime ++ u24 x.endMinute ++ minuteOrAbsent x.salesOpen
    ++ u8 x.state.code ++ minuteOrAbsent x.purge
    ++ u16 x.cap ++ u16 x.sold ++ u16 x.held ++ u16 x.left ++ u16 x.pace ++ u8 x.band.code ++ mark x.fast ++ mark x.oversold
    ++ mark (s.suspended x) ++ idOrNone ((s.delayedNotice x.id).map Notice.id)

/-- Data taken from a live record, none where the id is not live. -/
def State.fromShowing (s : State) (id : Nat) (f : Showing → List Byte) : List Byte :=
  match s.showing? id with
  | some x => f x
  | none => []

/-! ### PUBLISH -/

/-- Check 1 of R48, with the form check of R192. -/
def publishMalformed (f : PublishFields) : Bool :=
  f.spare != 0 || f.id.toNat = 0 || auditoriumBad f.auditorium.toNat || featureBad f.feature.toNat || 15 < f.format.toNat
    || minuteBad f.start || ifPresent minuteBad f.salesOpen

/-- A runtime pulled into 30 to 300, the feature's runtime where none is carried (R48, R49). -/
def publishRuntime (s : State) (f : PublishFields) : Nat :=
  match f.runtime with
  | some r => clamp 30 300 r.toNat
  | none => (s.feature? f.feature.toNat).elim 0 Feature.runtime

/-- A capacity pulled into 0 to 1500, the auditorium's capacity where none is carried (R48, R49). -/
def publishCapacity (s : State) (f : PublishFields) : Nat :=
  match f.capacity with
  | some c => clamp 0 1500 c.toNat
  | none => (s.auditorium f.auditorium.toNat).capacity

/-- A delay pulled into 0 to 180 (R48). -/
def delayOf (d : Byte) : Nat := clamp 0 180 d.toNat

/-- The delay of a PUBLISH: 0 where none is carried. -/
def publishDelay (f : PublishFields) : Nat := f.delay.elim 0 delayOf

/-- Whether a PUBLISH carries a value that is clamped. -/
def publishClamped (f : PublishFields) : Bool :=
  ifPresent (fun r => clamp 30 300 r.toNat != r.toNat) f.runtime || ifPresent (fun c => clamp 0 1500 c.toNat != c.toNat) f.capacity
    || ifPresent (fun d => delayOf d != d.toNat) f.delay

/-- Whether a start and the E computed from it are refused PAST: E not above M (R48, R51), or the start below 0 (R5, R47).
Log 14. -/
def startPast (m : Nat) (start : Int) (delay : Nat) : Bool := decide (start < 0 ∨ start + (delay : Int) ≤ (m : Int))

/-- The checks of R48 in their order; none where the request passes them. Check 7 takes the sales-open minute as computed, before R47
stores one below 0 as 0: DEDUCED, log 44. -/
def State.publishRefusal (s : State) (f : PublishFields) : Option Result :=
  let start := boardMinute s.cal.d0 f.start
  if publishMalformed f then some .malformed
  else if s.cal.clock = .unset then some .unset
  else if dayFar f.start || ifPresent dayFar f.salesOpen then some .horizon
  else if hasKey Showing.id f.id.toNat s.showings then some .exists
  else if !(s.auditorium f.auditorium.toNat).defined || (s.feature? f.feature.toNat).isNone then some .unknown
  else if startPast s.cal.m start (publishDelay f) then some .past
  else if ifPresent (fun o => decide (start ≤ boardMinute s.cal.d0 o)) f.salesOpen then some .malformed
  else if (Config.limitM : Int) < start + publishDelay f + publishRuntime s f then some .horizon
  else if Config.showingPlaces ≤ s.showings.length then some .full
  else none

/-- The record that a PUBLISH creates, before its figures are computed (R49). -/
def State.publishedShowing (s : State) (f : PublishFields) : Showing :=
  let salesOpen := f.salesOpen.map fun o => (boardMinute s.cal.d0 o).toNat
  { id := f.id.toNat, auditorium := f.auditorium.toNat, feature := f.feature.toNat, format := f.format.toNat,
    start := (boardMinute s.cal.d0 f.start).toNat, runtime := publishRuntime s f, delay := publishDelay f, salesOpen,
    cap := publishCapacity s f, sold := 0, held := 0, tally := 0, pace := 0, band := .opn, fast := false, oversold := false,
    state := if ifPresent (fun o => decide (s.cal.m < o)) salesOpen then .planned else .onSale, purge := none }

/-- PUBLISH carried out (R48, R49): the record is created, its figures are computed from the band OPEN, its first state and
its DELAYED notice are announced, and it is judged. -/
def publish (f : PublishFields) (s : State) : Answer × State :=
  match s.publishRefusal f with
  | some r => (refuse r, s)
  | none =>
    let x := s.publishedShowing f
    let t := { s with showings := insertKey Showing.id x s.showings }
    let t := changeSeats (.seats x.id) x.id (fun y => y) t
    let t := raise (.showing x.id) .showingState x.id x.state.code t
    let noticed := if x.delay = 0 then (t, false) else noticeForDelay x.id x.delay t
    let u := judgeShowing lifeSteps x.id noticed.1
    (done (publishClamped f)
      (u.fromShowing x.id (fun y => u16 y.id ++ u8 y.state.code ++ u24 y.start ++ u24 y.effective ++ u16 y.cap ++ u16 y.runtime)
        ++ mark noticed.2), u)

/-- PUBLISH (R48, R49). -/
def execPublish (t : Txn) (f : PublishFields) (s : State) : Host.Outcome State Fault Refusal :=
  .next (request t ((Wire.publishBytes f).length + 2) 32 [.schedule, .service] (publish f) s)

/-! ### MOVE -/

/-- Check 1 of R51, with the form check of R192. -/
def moveMalformed (f : MoveFields) : Bool :=
  f.spare != 0 || f.id.toNat = 0 || ifPresent (fun a => auditoriumBad a.toNat) f.auditorium || ifPresent minuteBad f.start
    || ifPresent minuteBad f.salesOpen || (f.auditorium.isNone && f.start.isNone)

/-- The start after a MOVE: the new one, or the kept one. -/
def movedStart (d0 : Int) (f : MoveFields) (x : Showing) : Int := f.start.elim (x.start : Int) (boardMinute d0)

/-- Whether the sales-open minute of a PLANNED showing, new or kept, is not below its start, new or kept (R51 check 7). A new one is taken
as computed: DEDUCED, log 44. -/
def moveSalesLate (d0 : Int) (f : MoveFields) (x : Showing) : Bool :=
  match f.salesOpen, x.salesOpen with
  | some o, _ => decide (movedStart d0 f x ≤ boardMinute d0 o)
  | none, some o => decide (movedStart d0 f x ≤ (o : Int))
  | none, none => false

/-- The checks of R51 in their order; none where the request passes them. -/
def State.moveRefusal (s : State) (f : MoveFields) : Option Result :=
  if moveMalformed f then some .malformed
  else if ifPresent dayFar f.start || ifPresent dayFar f.salesOpen then some .horizon
  else
    match s.showing? f.id.toNat with
    | none => some .unknown
    | some x =>
      if x.state ≠ .planned ∧ x.state ≠ .onSale then some .state
      else if x.state = .onSale ∧ f.salesOpen.isSome then some .state
      else if ifPresent (fun a => !(s.auditorium a.toNat).defined) f.auditorium then some .unknown
      else if startPast s.cal.m (movedStart s.cal.d0 f x) x.delay then some .past
      else if x.state = .planned ∧ moveSalesLate s.cal.d0 f x then some .malformed
      else if (Config.limitM : Int) < movedStart s.cal.d0 f x + x.delay + x.runtime then some .horizon
      else none

/-- The capacity after a MOVE (R52). -/
def State.movedCapacity (s : State) (f : MoveFields) (x : Showing) : Nat :=
  match f.capacity, f.auditorium with
  | some c, _ => clamp 0 1500 c.toNat
  | none, some a => (s.auditorium a.toNat).capacity
  | none, none => x.cap

/-- The record after a MOVE, its capacity apart (R52). -/
def State.movedShowing (s : State) (f : MoveFields) (x : Showing) : Showing :=
  { x with
    auditorium := f.auditorium.elim x.auditorium BitVec.toNat
    start := (movedStart s.cal.d0 f x).toNat
    salesOpen := match f.salesOpen with
      | some o => some (boardMinute s.cal.d0 o).toNat
      | none => x.salesOpen }

/-- The amendment record of MOVE, DELAY and SET CAPACITY (R40). -/
def raiseAmendment (id : Nat) (st : ShowState) (s : State) : State := raise (.showing id) .showingState id (8 + st.code) s

/-- MOVE carried out (R52). The fast flag is recomputed where C or the start changes (R93). -/
def move (f : MoveFields) (s : State) : Answer × State :=
  match s.moveRefusal f, s.showing? f.id.toNat with
  | some r, _ => (refuse r, s)
  | none, none => (refuse .unknown, s)
  | none, some x =>
    let id := x.id
    let cap := s.movedCapacity f x
    let t := s.modShowing id fun y => s.movedShowing f y
    let t := if cap = x.cap then (if (s.movedShowing f x).start = x.start then t else recomputeFast id t)
      else seatChange .capacity id cap (fun y => { y with cap }) t
    let u := judgeShowing lifeSteps id (raiseAmendment id x.state t)
    (done (ifPresent (fun c => clamp 0 1500 c.toNat != c.toNat) f.capacity)
      (u.fromShowing id fun y => u8 y.auditorium ++ u24 y.start ++ u24 y.effective ++ u16 y.cap ++ u8 y.state.code), u)

/-- MOVE (R51, R52). -/
def execMove (t : Txn) (f : MoveFields) (s : State) : Host.Outcome State Fault Refusal :=
  .next (request t ((Wire.moveBytes f).length + 2) 33 [.schedule, .service] (move f) s)

/-! ### DELAY, SET CAPACITY, CANCEL, QUERY SHOWING -/

/-- DELAY carried out: the five steps of R54. The state it replies for a record that the judging has freed is a free value (log 35). -/
def delayShowing (id : Nat) (d : Byte) (s : State) : Answer × State :=
  if id = 0 then (refuse .malformed, s)
  else
    match s.showing? id with
    | none => (refuse .unknown, s)
    | some x =>
      if x.state ≠ .planned ∧ x.state ≠ .onSale ∧ x.state ≠ .seating then (refuse .state, s)
      else if Config.limitM < x.start + delayOf d + x.runtime then (refuse .horizon, s)
      else
        let t := recomputeFast id (s.modShowing id fun y => { y with delay := delayOf d })
        let noticed := noticeForDelay id (delayOf d) (raiseAmendment id x.state t)
        let u := judgeShowing lifeSteps id noticed.1
        (done (delayOf d != d.toNat)
          (u8 ((u.showing? id).elim (Config.freedState u.choice) fun y => y.state.code) ++ u24 (x.start + delayOf d)
            ++ idOrNone ((u.delayedNotice id).map Notice.id) ++ mark noticed.2), u)

/-- DELAY (R53, R54). -/
def execDelay (t : Txn) (id : Half) (minutes : Byte) (s : State) : Host.Outcome State Fault Refusal :=
  .next (request t 5 34 [.schedule, .desk, .service] (delayShowing id.toNat minutes) s)

/-- SET CAPACITY carried out (R55). -/
def setCapacity (id c : Nat) (s : State) : Answer × State :=
  if id = 0 then (refuse .malformed, s)
  else
    match s.showing? id with
    | none => (refuse .unknown, s)
    | some x =>
      if x.state = .ended ∨ x.state = .cancelled then (refuse .state, s)
      else
        let cap := clamp 0 1500 c
        let t := raiseAmendment id x.state (seatChange .capacity id cap (fun y => { y with cap }) s)
        (done (cap != c) (t.fromShowing id fun y => u16 y.cap ++ u16 y.sold ++ u16 y.held ++ u16 y.left), t)

/-- SET CAPACITY (R55). -/
def execSetCapacity (t : Txn) (id capacity : Half) (s : State) : Host.Outcome State Fault Refusal :=
  .next (request t 6 35 [.schedule, .service] (setCapacity id.toNat capacity.toNat) s)

/-- CANCEL carried out (R45). The records of the holds' release and of the retired notice follow SHOWING STATE (R40, R110), in any
order between the two blocks (R184, log 9). -/
def cancel (id : Nat) (s : State) : Answer × State :=
  if id = 0 then (refuse .malformed, s)
  else
    match s.showing? id with
    | none => (refuse .unknown, s)
    | some x =>
      if x.state = .ended ∨ x.state = .cancelled then (refuse .state, s)
      else
        let deadline := purgeAt (s.cal.m + s.life.linger)
        let t := transitionTo id .cancelled (s.modShowing id fun y => { y with purge := some deadline })
        let ends := fun t => retireDelayed (.showing id) id (releaseHolds (.seats id) endCancelled .cancelRelease id t)
        (done false (u24 deadline), inAnyOrder (.showing id) ends t)

/-- CANCEL (R45). -/
def execCancel (t : Txn) (id : Half) (s : State) : Host.Outcome State Fault Refusal :=
  .next (request t 4 36 [.schedule, .desk, .service] (cancel id.toNat) s)

/-- QUERY SHOWING carried out (R56). -/
def queryShowing (id : Nat) (s : State) : Answer × State :=
  if id = 0 then (refuse .malformed, s)
  else
    match s.showing? id with
    | none => (refuse .unknown, s)
    | some x => (done false (s.showingData x), s)

/-- QUERY SHOWING (R56). -/
def execQueryShowing (t : Txn) (id : Half) (s : State) : Host.Outcome State Fault Refusal :=
  .next (request t 4 5 allRoles (queryShowing id.toNat) s)

end Sys2Proof.Machine
end

