-- ==== Sys2Proof/Machine/Calendar.lean ====
section
/-! DEFINITION. The Calendar Unit: the second event and what it drives, SET TIME, WAKE, and HUSH with its event (spec/01). -/

namespace Sys2Proof.Machine

/-! ### HUSH and WAKE -/

/-- The pair of HUSH and WAKE as a detail (R14). -/
def hushPair (hush wake : Bool) : Nat := (if hush then 2 else 0) + (if wake then 1 else 0)

/-- HUSH and WAKE given new values: a change of either raises one HUSH event and re-judges every panel (R14, R146). -/
def setHushWake (hush wake : Bool) (s : State) : State :=
  let t := { s with cal := { s.cal with hush, wake } }
  if s.cal.hush = hush ∧ s.cal.wake = wake then t
  else judgeHushAll (raise .calendar .hush 0 (hushPair hush wake) t)

/-- Whether the lobby is closed at a wall minute by the calendar's hours (R11). -/
def Calendar.closedAt (c : Calendar) (w : Nat) : Bool := lobbyClosed c.openMin c.closeMin w

/-! ### The minute event -/

/-- The day-start test at a minute event (R6). -/
def dayStartTest (s : State) : State :=
  if s.cal.m % 1440 = 60 * s.cal.h0 then
    raise .calendar .dayStart 0 s.cal.weekday { s with cal := { s.cal with d0 := (s.cal.m : Int) } }
  else s

/-- The lobby-hours crossings at a minute event (R11). -/
def lobbyCrossing (s : State) : State :=
  let c := s.cal
  if c.openMin = c.closeMin then s
  else if c.wall = c.closeMin then setHushWake true false s
  else if c.wall = c.openMin then setHushWake false c.wake s
  else s

/-- Whether a due notice is linked to a showing that has a transition due: then the order of the Notice Unit and the Showing
Table at the minute event matters (R107, R110). -/
def State.noticesCross (s : State) : Bool :=
  s.notices.table.any fun n =>
    (n.activationDue s.cal.m || n.expiryDue s.cal.m) &&
      ifPresent (fun x => ((s.showing? x).map fun y => (y.due s.life s.cal.m).isSome) == some true) n.link

/-- The source of a notice's records at a minute event: its showing's where the two blocks meet, so that they keep their
order. -/
def State.noticeSource (s : State) (n : Notice) : Source :=
  match n.link with
  | some x => if s.noticesCross then .showing x else .notice n.id
  | none => .notice n.id

/-- The minute event delivered to the blocks (R3, R9): the Showing Table, the Notice Unit and the Seat Accounting Unit. Where
the order of the first two matters it is a free choice (log 12). -/
def deliverMinute (s : State) : State :=
  let source := s.noticeSource
  if s.noticesCross then
    let t := { s with choice := s.choice + 1 }
    paceMinute (if Config.pick s.choice % 2 = 0 then noticeMinute source (judgeAll t) else judgeAll (noticeMinute source t))
  else paceMinute (noticeMinute source (judgeAll s))

/-! ### The second event -/

/-- The dwell counts of every enabled panel at a second event (R143, R144). -/
def Panel.second (p : Panel) : Panel :=
  if p.profile.enabled then { p with pageCount := p.pageCount - 1, noticeCount := p.noticeCount - 1 } else p

/-- Whether a hold that runs out names a showing that comes to CLOSED at the same second event. -/
def State.expiryMeetsClosing (s : State) : Bool :=
  s.expired.any fun h => ifPresent (Showing.comesToClosed s.life s.cal.m) (s.showing? h.showing)

/-- The source of the records of an expiry at a minute event: the showing's own where the transitions release its holds at the
same event, so that its records keep their order. -/
def State.expirySource (s : State) (id : Nat) : Source :=
  if ifPresent (Showing.comesToClosed s.life s.cal.m) (s.showing? id) then .showing id else .seats id

/-- The expiry of holds and the minute event that one second event brings. Where a hold that runs out names a showing that comes
to CLOSED, which is taken first is a free choice (R70, log 12). -/
def minuteWithExpiry (s : State) : State :=
  let source := s.expirySource
  if s.expiryMeetsClosing then
    let t := { s with choice := s.choice + 1 }
    if Config.pick s.choice % 2 = 0 then deliverMinute (expireHolds source t) else expireHolds source (deliverMinute t)
  else deliverMinute (expireHolds source s)

/-- The calendar's own part of a minute event (R3). -/
def calendarMinute (s : State) : State := lobbyCrossing (dayStartTest s)

/-- The second event of a pin reset whose RSTN is asserted: the calendar counts, and a CLOCK LIMIT is kept for the release (R16,
log 8). -/
def secondInPinReset (s : State) : State :=
  let c := s.cal.tick
  let t := { s with cal := c.1 }
  match c.2 with
  | .limit => { t with deferred := t.deferred ++ [t.record .clockLimit 0 0] }
  | .none => t
  | .minute => t

/-- The second event while RSTN is asserted. After a power-on reset the second field waits for the release: DEDUCED from R15's "first
second event after the reset" and R190's tag of 0, log 36. -/
def secondInReset (kind : ResetKind) (s : State) : State :=
  match kind with
  | .powerOn => s
  | .pin => secondInPinReset s

/-- The second event: the calendar counts, the holds and the sales watch count down, the dwells run, and a carry brings the
minute event (R1 to R4, R70, R77, R143). R2 does not say whether the Seat Accounting Unit acts before or after the second field
advances: the calendar counts first, so that what this event raises and journals is tagged with the advanced second (R80). DEDUCED,
log 47. -/
def secondEvent (s : State) : State :=
  match s.rstn with
  | .asserted kind => secondInReset kind s
  | .released =>
    let c := s.cal.tick
    let t := countDown { s with cal := c.1 }
    let u := match c.2 with
      | .none => expireHolds Source.seats t
      | .limit => expireHolds Source.seats (raise .board .clockLimit 0 0 t)
      | .minute => minuteWithExpiry (calendarMinute t)
    let v := watchSecond u
    settle { v with panels := v.panels.map Panel.second }

/-- SECOND_EVENT (R2). -/
def execSecondEvent (s : State) : Host.Outcome State Fault Refusal := .next (secondEvent s)

/-- MINUTE_EVENT: the second event that carries into a new minute while RUNNING (R3). A label that does not fit the state
names no arrival. Log 1. -/
def execMinuteEvent (s : State) : Host.Outcome State Fault Refusal :=
  .next (if s.cal.clock = .running ∧ 59 ≤ s.cal.second then secondEvent s else s)

/-- MIDNIGHT_EVENT: the second event that carries from 23:59:59 (R1). Log 1. -/
def execMidnightEvent (s : State) : Host.Outcome State Fault Refusal :=
  .next (if s.cal.clock = .running ∧ s.cal.hour = 23 ∧ s.cal.minute = 59 ∧ 59 ≤ s.cal.second then secondEvent s else s)

/-- HOLD_EXPIRY: the second event at which the named hold runs out (R70). Log 1. -/
def execHoldExpiry (tag : Half) (s : State) : Host.Outcome State Fault Refusal :=
  .next (if ifPresent (fun h => decide (h.remaining ≤ 1)) (s.hold? tag.toNat) then secondEvent s else s)

/-- SALES_STALE: the second event at which the sales watch runs out (R77). Log 1. -/
def execSalesStale (s : State) : Host.Outcome State Fault Refusal :=
  .next (if s.watch.sales = .current ∧ s.watch.count ≤ 1 then secondEvent s else s)

/-- DWELL_EXPIRY: the second event at which a dwell count of the panel reaches 0 (R143, R144). Log 1. -/
def execDwellExpiry (p : Link) (s : State) : Host.Outcome State Fault Refusal :=
  .next (if (s.panel (panelOf p)).profile.enabled = true ∧
      ((s.panel (panelOf p)).pageCount = 1 ∨ (s.panel (panelOf p)).noticeCount = 1) then secondEvent s else s)

/-! ### SET TIME and WAKE -/

/-- Whether a span of board minutes after old up to and including new contains one of a wall minute (R9). -/
def spanContains (old new wall : Nat) : Bool := decide ((old + 1440 - wall) / 1440 < (new + 1440 - wall) / 1440)

/-- The checks of R7 in their order; none where the request passes them. -/
def State.timeRefusal (s : State) (f : TimeFields) : Option Result :=
  if !realInstant f then some .malformed
  else if s.cal.held then some .range
  else
    match s.cal.clock with
    | .unset => none
    | .running =>
      let d := s.cal.delta f
      if d < -10080 ∨ 10080 < d ∨ (s.cal.m : Int) + d < 0 ∨ (Config.limitM : Int) < s.cal.m + d then some .range else none

/-- HUSH set from a wall minute, WAKE as given (R8 to R10, R13). -/
def hushFrom (w : Nat) (wake : Bool) (s : State) : State := setHushWake (s.cal.closedAt w) wake s

/-- The first SET TIME (R8). -/
def firstSet (f : TimeFields) (s : State) : State :=
  let c := s.cal.setInstant f
  let m := 1440 + c.wall
  hushFrom c.wall s.cal.wake { s with cal := { c with clock := .running, m, d0 := businessBase m c.h0 } }

/-- A forward jump: one minute event, at most one DAY START, then HUSH and WAKE (R9). -/
def forwardJump (f : TimeFields) (s : State) : State :=
  let c := s.cal.setInstant f
  let m := ((s.cal.m : Int) + s.cal.delta f).toNat
  let d0 := businessBase m c.h0
  let t := deliverMinute { s with cal := { c with m, d0 } }
  let back := ((m / 1440 : Nat) : Int) - d0 / 1440
  let t := if s.cal.d0 < d0 then raise .calendar .dayStart 0 (weekdayBack c.weekday back.toNat) t else t
  let crossed := decide (c.openMin ≠ c.closeMin) && spanContains s.cal.m m c.closeMin
  hushFrom c.wall (s.cal.wake && !crossed) t

/-- A backward set, or a delta of 0 (R10). -/
def backwardSet (f : TimeFields) (s : State) : State :=
  let c := s.cal.setInstant f
  let m := ((s.cal.m : Int) + s.cal.delta f).toNat
  hushFrom c.wall s.cal.wake { s with cal := { c with m, d0 := businessBase m c.h0 } }

/-- SET TIME carried out (R7 to R10). The delta is sent as D0 is: PRESUMED, log 16. -/
def setTime (f : TimeFields) (s : State) : Answer × State :=
  match s.timeRefusal f with
  | some r => (refuse r, s)
  | none =>
    match s.cal.clock with
    | .unset =>
      let t := firstSet f s
      (done false (u24 t.cal.m ++ s24 0), t)
    | .running =>
      let d := s.cal.delta f
      let t := if 0 < d then forwardJump f s else backwardSet f s
      (done false (u24 t.cal.m ++ s24 d), t)

/-- SET TIME (R7). -/
def execSetTime (t : Txn) (f : TimeFields) (s : State) : Host.Outcome State Fault Refusal :=
  .next (request t 9 10 [.schedule, .service] (setTime f) s)

/-- WAKE carried out (R12). -/
def wakeBoard (s : State) : Answer × State :=
  (done false (mark s.cal.hush ++ mark true), setHushWake s.cal.hush true s)

/-- WAKE (R12). -/
def execWake (t : Txn) (s : State) : Host.Outcome State Fault Refusal :=
  .next (request t 2 11 [.desk, .service] wakeBoard s)

end Sys2Proof.Machine
end

