-- ==== Sys2Proof/Machine/Board.lean ====
section
/-! DEFINITION. The Port Interface's requests about the whole board: SET BOARD, BOARD CLEAR and QUERY BOARD (R180 to R182). -/

namespace Sys2Proof.Machine

/-! ### SET BOARD: the settings -/

/-- A carried setting pulled into its range, or the value it holds. -/
def carried {w : Nat} (o : Option (BitVec w)) (lo hi old : Nat) : Nat := o.elim old fun x => clamp lo hi x.toNat

/-- Whether a carried setting is pulled into its range. -/
def pulled {w : Nat} (o : Option (BitVec w)) (lo hi : Nat) : Bool := ifPresent (fun x => clamp lo hi x.toNat != x.toNat) o

/-- The lifecycle settings after a SET BOARD (R46). -/
def boardLife (f : BoardFields) (l : LifeSettings) : LifeSettings :=
  { lead := carried f.lead 0 60 l.lead, late := carried f.late 0 30 l.late, linger := carried f.linger 1 60 l.linger }

/-- F2 after a SET BOARD: clamped against F1 as it stands after the request, and raised where F1 overtakes it (R85). -/
def boardF2 (o : Option Half) (f1 old : Nat) : Nat :=
  match o with
  | some x => clamp (f1 + 1) 999 x.toNat
  | none => if old ≤ f1 then f1 + 1 else old

/-- The figure settings after a SET BOARD (R85). -/
def boardFigure (f : BoardFields) (g : FigureSettings) : FigureSettings :=
  let f1 := carried f.f1 1 998 g.f1
  { f1, f2 := boardF2 f.f2 f1 g.f2, w := carried f.w 0 100 g.w, k := carried f.k 0 50 g.k, dc := carried f.dc 9 999 g.dc }

/-- The frame period after a SET BOARD: clamped, then taken down to a step of 50 (R157). -/
def boardFrame (o : Option Half) (old : Nat) : Nat := o.elim old fun x => clamp 200 1000 x.toNat / 50 * 50

/-- Whether a SET BOARD clamps a value, or raises a stored F2 (R180). -/
def boardClamped (f : BoardFields) (s : State) : Bool :=
  let g := boardFigure f s.figure
  pulled f.h0 0 23 || pulled f.openMin 0 1439 || pulled f.closeMin 0 1439 || pulled f.lead 0 60 || pulled f.late 0 30
    || pulled f.linger 1 60 || pulled f.f1 1 998 || (g.f2 != f.f2.elim s.figure.f2 BitVec.toNat) || pulled f.w 0 100
    || pulled f.k 0 50 || pulled f.dc 9 999 || pulled f.watch 5 300
    || ifPresent (fun x => boardFrame (some x) 0 != x.toNat) f.frame

/-! ### SET BOARD: what the owners do -/

/-- The wall minute by which a change of lobby hours sets HUSH: the current one, or, while M is held, the one of the held M (R13,
log 15). -/
def Calendar.hoursMinute (c : Calendar) : Nat := if c.held then c.m % Config.dayMinutes else c.wall

/-- HUSH after a change of lobby hours (R13): off while the clock is UNSET. -/
def Calendar.hoursHush (c : Calendar) : Bool :=
  match c.clock with
  | .unset => c.hush
  | .running => c.closedAt c.hoursMinute

/-- The calendar's settings stored, and D0 recomputed where H0 changes, the clock is RUNNING and M is not held (R5, R13). -/
def storeCalendar (f : BoardFields) (c : Calendar) : Calendar :=
  let h0 := carried f.h0 0 23 c.h0
  { c with
    h0
    openMin := carried f.openMin 0 1439 c.openMin
    closeMin := carried f.closeMin 0 1439 c.closeMin
    d0 := if h0 ≠ c.h0 ∧ c.clock = .running ∧ c.held = false then businessBase c.m h0 else c.d0 }

/-- The calendar's part of SET BOARD (R13). -/
def boardCalendar (f : BoardFields) (s : State) : State :=
  let c := storeCalendar f s.cal
  let t := { s with cal := c }
  if c.openMin = s.cal.openMin ∧ c.closeMin = s.cal.closeMin then t else setHushWake c.hoursHush false t

/-- A purge deadline moved by the new G less the old, kept within 0 to the limit (R46). -/
def movePurge (old new : Nat) (x : Showing) : Showing :=
  match x.state with
  | .ended | .cancelled => { x with purge := x.purge.map fun d => min Config.limitM (d + new - old) }
  | .planned | .onSale | .seating | .started | .closed => x

/-- The Showing Table's part of SET BOARD (R46). -/
def boardLifecycle (l : LifeSettings) (s : State) : State :=
  if l = s.life then s
  else judgeAll { s with life := l, showings := s.showings.map (movePurge s.life.linger l.linger) }

/-- The band of one showing recomputed, a change raising BAND (R88, R89, R96). -/
def recomputeBand (source : Nat → Source) (s : State) (id : Nat) : State :=
  match s.showing? id with
  | none => s
  | some x =>
    let b := x.nextBand s.figure
    if b = x.band then s else raise (source id) .band id b.code (s.modShowing id fun y => { y with band := b })

/-- Whether a SET BOARD changes F1, F2, W or K (R96). -/
def FigureSettings.bandsMove (g h : FigureSettings) : Bool := g.f1 != h.f1 || g.f2 != h.f2 || g.w != h.w || g.k != h.k

/-- The Seat Accounting Unit's part of SET BOARD in the figure's settings (R85, R96). -/
def boardBands (source : Nat → Source) (g : FigureSettings) (s : State) : State :=
  let t := { s with figure := g }
  if s.figure.bandsMove g then (s.showings.map Showing.id).foldl (recomputeBand source) t else t

/-- The source of a BAND raised for a showing at a SET BOARD: the showing's own where its transitions raise BAND at the same
arrival, so that its records keep their order. -/
def State.bandSource (s : State) (l : LifeSettings) (id : Nat) : Source :=
  if l ≠ s.life ∧ ifPresent (Showing.comesToClosed l s.cal.m) (s.showing? id) then .showing id else .seats id

/-- The place after the last element of a list that passes a test, 0 where none does. -/
def afterLast {α : Type} (test : α → Bool) : List α → Nat
  | [] => 0
  | x :: l =>
    let n := afterLast test l
    if n = 0 then (if test x then 1 else 0) else n + 1

/-- The settings' BAND of a showing joined to what the same SET BOARD raises in the Showing Table's part: after the showing's HOLD ENDED
records (R60, R89), before the BAND of its CLOSED where the settings are taken first and after it otherwise, and in any order
against the other records (R180, log 13). -/
def joinBand (first : Bool) (k : Nat) (l : List (Source × EventRecord)) (x : Source × EventRecord) : List (Source × EventRecord) :=
  let band := fun y : Source × EventRecord => y.1 == x.1 && y.2.kind == .band
  let low := afterLast (fun y => (y.1 == x.1 && y.2.kind == .holdEnded) || (!first && band y)) l
  let high := if first then l.findIdx band else l.length
  l.insertIdx (low + Config.pick k % (high - low + 1)) x

/-- Each settings' BAND joined to the outbox, at a choice of its own. -/
def joinBands (first : Bool) (bands : List (Source × EventRecord)) (s : State) : State :=
  bands.foldl (fun t x => { t with outbox := joinBand first t.choice t.outbox x, choice := t.choice + 1 }) s

/-- The parts of the Showing Table and the Seat Accounting Unit. Where both have work, which is taken first is a free choice (R180,
log 13); the Seat Accounting Unit's own records keep R60's order in either case. -/
def boardShowings (l : LifeSettings) (g : FigureSettings) (s : State) : State :=
  let source := s.bandSource l
  if l ≠ s.life ∧ s.figure.bandsMove g then
    let t := { s with choice := s.choice + 1 }
    if Config.pick s.choice % 2 = 0 then
      let u := boardLifecycle l t
      let v := boardBands source g { u with outbox := [] }
      joinBands false v.outbox { v with outbox := u.outbox }
    else
      let u := boardBands source g { t with outbox := [] }
      joinBands true u.outbox (boardLifecycle l { u with outbox := t.outbox })
  else boardBands source g (boardLifecycle l s)

/-- The watch period after a SET BOARD: in CURRENT, a count above a new period is set to it (R77). -/
def boardWatch (o : Option Half) (w : Watch) : Watch :=
  let period := carried o 5 300 w.period
  match w.sales with
  | .current => { w with period, count := if period = w.period then w.count else min w.count period }
  | .stale => { w with period }

/-! ### SET BOARD -/

/-- Every setting of the SET BOARD table, in its order (R180, R182). -/
def State.settingsData (s : State) : List Byte :=
  u8 s.cal.h0 ++ u16 s.cal.openMin ++ u16 s.cal.closeMin ++ u8 s.life.lead ++ u8 s.life.late ++ u8 s.life.linger
    ++ u16 s.figure.f1 ++ u16 s.figure.f2 ++ u8 s.figure.w ++ u8 s.figure.k ++ u16 s.figure.dc ++ u16 s.watch.period
    ++ u16 s.framePeriod

/-- SET BOARD carried out (R180). -/
def setBoard (f : BoardFields) (s : State) : Answer × State :=
  if f.spare ≠ 0 then (refuse .malformed, s)
  else
    let t := boardShowings (boardLife f s.life) (boardFigure f s.figure) (boardCalendar f s)
    let t := { t with watch := boardWatch f.watch t.watch, framePeriod := boardFrame f.frame t.framePeriod }
    (done (boardClamped f s) t.settingsData, t)

/-- SET BOARD (R180). -/
def execSetBoard (t : Txn) (f : BoardFields) (s : State) : Host.Outcome State Fault Refusal :=
  .next (request t ((Wire.boardBytes f).length + 2) 12 [.schedule, .service] (setBoard f) s)

/-! ### BOARD CLEAR -/

/-- The calendar rebased by a BOARD CLEAR while RUNNING (R17). -/
def clearCalendar (c : Calendar) : Calendar :=
  match c.clock with
  | .unset => c
  | .running => { c with m := 1440 + c.wall, held := false, d0 := businessBase (1440 + c.wall) c.h0 }

/-- A carousel at a BOARD CLEAR (R136). -/
def Carousel.cleared (c : Carousel) : Carousel := { c with cursor := 0, round := none, outcome := .none }

/-- A panel context at a BOARD CLEAR, its hushed mark apart (R155). -/
def Panel.cleared (c : Panel) : Panel :=
  { c with pageIndex := 0, pageCount := c.profile.pageDwell, noticeIndex := 0, noticeCount := c.profile.noticeDwell, zone := .idle }

/-- What a BOARD CLEAR empties (R17, R58, R84, R117, R136, R155). -/
def emptyBoard (s : State) : State :=
  { s with
    cal := clearCalendar s.cal
    showings := []
    holds := []
    journal := Journal.empty
    notices := NoticeUnit.empty
    carousels := s.carousels.map Carousel.cleared
    plays := s.plays.map fun _ => none
    panels := s.panels.map Panel.cleared }

/-- BOARD CLEAR carried out (R17, R181). BOARD CLEARED is tagged with the rebased M: DEDUCED, log 34. -/
def boardClear (p : Port) (s : State) : Answer × State :=
  let t := emptyBoard s
  let t := match t.cal.clock with
    | .running => hushFrom t.cal.wall t.cal.wake t
    | .unset => t
  let t := raise .board .boardCleared 0 (portCode p) (judgeHushAll t)
  (done false (u24 (match t.cal.clock with
    | .running => t.cal.m
    | .unset => 0)), t)

/-- BOARD CLEAR (R181). -/
def execBoardClear (t : Txn) (s : State) : Host.Outcome State Fault Refusal :=
  .next (request t 2 13 [.service] (boardClear t.port) s)

/-! ### QUERY BOARD -/

/-- The data of QUERY BOARD (R182). -/
def State.boardData (s : State) (p : Port) : List Byte :=
  s.cal.data ++ u8 s.cal.clock.code ++ u24 s.cal.m ++ mark s.cal.held ++ s24 s.cal.d0 ++ mark s.cal.hush ++ mark s.cal.wake
    ++ s.settingsData
    ++ u8 s.watch.sales.code ++ u16 s.watch.count
    ++ u8 s.journal.filling.length ++ u8 s.journal.closed.length ++ u16 s.journal.dropped
    ++ u8 s.showings.length ++ u8 s.holds.length ++ u8 s.notices.table.length
    ++ u8 s.ports.a.role.code ++ u8 s.ports.b.role.code ++ u8 s.ports.c.role.code ++ u8 (portCode p)

/-- QUERY BOARD carried out (R182). -/
def queryBoard (p : Port) (s : State) : Answer × State := (done false (s.boardData p), s)

/-- QUERY BOARD (R182). -/
def execQueryBoard (t : Txn) (s : State) : Host.Outcome State Fault Refusal :=
  .next (request t 2 4 allRoles (queryBoard t.port) s)

end Sys2Proof.Machine
end

