-- ==== Sys2Proof/Machine/Catalogue.lean ====
section
/-! DEFINITION. The Catalogue: the auditorium, feature and text requests (spec/02). -/

namespace Sys2Proof.Machine

/-! ### Auditoriums -/

/-- PUT AUDITORIUM carried out (R19): a defined entry keeps its state. -/
def putAuditorium (a name cap : Nat) (s : State) : Answer × State :=
  if auditoriumBad a || textBad name then (refuse .malformed, s)
  else if !(s.text name).present then (refuse .unknown, s)
  else
    let capacity := clamp 1 1500 cap
    let old := s.auditorium a
    let entry := { old with defined := true, name, capacity }
    (done (capacity != cap) (u8 a ++ u16 name ++ u16 capacity ++ u8 entry.state.code), s.setAuditorium a entry)

/-- PUT AUDITORIUM (R19). -/
def execPutAuditorium (t : Txn) (a : Byte) (name capacity : Half) (s : State) : Host.Outcome State Fault Refusal :=
  .next (request t 7 16 [.schedule, .service] (putAuditorium a.toNat name.toNat capacity.toNat) s)

/-- Whether a live showing names an auditorium (R21). -/
def State.auditoriumInUse (s : State) (a : Nat) : Bool := s.showings.any fun x => x.auditorium == a

/-- DROP AUDITORIUM carried out (R21). -/
def dropAuditorium (a : Nat) (s : State) : Answer × State :=
  if auditoriumBad a then (refuse .malformed, s)
  else if !(s.auditorium a).defined then (refuse .unknown, s)
  else if s.auditoriumInUse a then (refuse .inUse, s)
  else (done false [], s.setAuditorium a Auditorium.undefined)

/-- DROP AUDITORIUM (R21). -/
def execDropAuditorium (t : Txn) (a : Byte) (s : State) : Host.Outcome State Fault Refusal :=
  .next (request t 3 17 [.schedule, .service] (dropAuditorium a.toNat) s)

/-- SUSPEND or RESUME AUDITORIUM carried out (R22). -/
def setAudState (a : Nat) (state : AudState) (s : State) : Answer × State :=
  if auditoriumBad a then (refuse .malformed, s)
  else if !(s.auditorium a).defined then (refuse .unknown, s)
  else
    let old := s.auditorium a
    (done false (u8 state.code), s.setAuditorium a { old with state })

/-- SUSPEND AUDITORIUM (R22). -/
def execSuspendAuditorium (t : Txn) (a : Byte) (s : State) : Host.Outcome State Fault Refusal :=
  .next (request t 3 18 [.schedule, .desk, .service] (setAudState a.toNat .suspended) s)

/-- RESUME AUDITORIUM (R22). -/
def execResumeAuditorium (t : Txn) (a : Byte) (s : State) : Host.Outcome State Fault Refusal :=
  .next (request t 3 19 [.schedule, .desk, .service] (setAudState a.toNat .inService) s)

/-! ### Features -/

/-- PUT FEATURE carried out (R24). R24 lists no items of the entry in the reply: it is sent as its number, title, rating and runtime,
as R19 lists an auditorium's with the number first. DEDUCED, log 46. -/
def putFeature (f title rating run : Nat) (s : State) : Answer × State :=
  if featureBad f || textBad title || 15 < rating then (refuse .malformed, s)
  else if !(s.text title).present then (refuse .unknown, s)
  else
    let runtime := clamp 30 300 run
    (done (runtime != run) (u8 f ++ u16 title ++ u8 rating ++ u16 runtime), s.setFeature f (some { title, rating, runtime }))

/-- PUT FEATURE (R24). -/
def execPutFeature (t : Txn) (f : Byte) (title : Half) (rating : Byte) (runtime : Half) (s : State) :
    Host.Outcome State Fault Refusal :=
  .next (request t 8 20 [.schedule, .service] (putFeature f.toNat title.toNat rating.toNat runtime.toNat) s)

/-- Whether a live showing or a carousel entry names a feature (R26). -/
def State.featureInUse (s : State) (f : Nat) : Bool :=
  (s.showings.any fun x => x.feature == f) || s.carousels.any fun c => c.ring.any fun e => e.feature == some f

/-- DROP FEATURE carried out (R26). -/
def dropFeature (f : Nat) (s : State) : Answer × State :=
  if featureBad f then (refuse .malformed, s)
  else if (s.feature? f).isNone then (refuse .unknown, s)
  else if s.featureInUse f then (refuse .inUse, s)
  else (done false [], s.setFeature f none)

/-- DROP FEATURE (R26). -/
def execDropFeature (t : Txn) (f : Byte) (s : State) : Host.Outcome State Fault Refusal :=
  .next (request t 3 21 [.schedule, .service] (dropFeature f.toNat) s)

/-! ### Texts -/

/-- The text ids that a role may write and drop (R28). -/
def Role.ownsText (r : Role) (id : Nat) : Bool :=
  match r with
  | .schedule => decide (1 ≤ id ∧ id ≤ 255)
  | .desk => decide (256 ≤ id ∧ id ≤ 384)
  | .service => decide (1 ≤ id ∧ id ≤ 384)
  | .sales => false

/-- The mark of a text cleared in every panel's text-current set (R30). -/
def clearMarks (id : Nat) (s : State) : State :=
  { s with panels := s.panels.map fun p => { p with current := p.current.filter fun i => i != id } }

/-- PUT TEXT carried out (R27, R28, R29). -/
def putText (p : Port) (id : Nat) (bytes : List Byte) (s : State) : Answer × State :=
  if textBad id || 64 < bytes.length then (refuse .malformed, s)
  else if !(s.port p).role.ownsText id then (refuse .role, s)
  else
    let revision := ((s.text id).revision + 1) % 16
    (done false (u8 revision), clearMarks id (s.setText id { present := true, bytes, revision }))

/-- PUT TEXT (R29). -/
def execPutText (t : Txn) (id : Half) (bytes : List Byte) (s : State) : Host.Outcome State Fault Refusal :=
  .next (request t (5 + bytes.length) 22 [.schedule, .desk, .service] (putText t.port id.toNat bytes) s)

/-- Whether a text is the name of a defined auditorium, the title of a present feature or the content of a live notice
(R31). -/
def State.textInUse (s : State) (id : Nat) : Bool :=
  (s.catalogue.auditoriums.any fun a => a.defined && a.name == id)
    || (s.catalogue.features.any fun f => f.elim false fun x => x.title == id)
    || s.notices.table.any fun n => n.content == .text id

/-- DROP TEXT carried out (R27, R28, R31). -/
def dropText (p : Port) (id : Nat) (s : State) : Answer × State :=
  if textBad id then (refuse .malformed, s)
  else if !(s.port p).role.ownsText id then (refuse .role, s)
  else if !(s.text id).present then (refuse .unknown, s)
  else if s.textInUse id then (refuse .inUse, s)
  else
    let revision := (s.text id).revision
    (done false [], clearMarks id (s.setText id { present := false, bytes := [], revision }))

/-- DROP TEXT (R31). -/
def execDropText (t : Txn) (id : Half) (s : State) : Host.Outcome State Fault Refusal :=
  .next (request t 4 23 [.schedule, .desk, .service] (dropText t.port id.toNat) s)

end Sys2Proof.Machine
end

