-- ==== Sys2Proof/Machine/Events.lean ====
section
/-! DEFINITION. The Event Router's requests: READ EVENTS and SET FILTER (spec/11). -/

namespace Sys2Proof.Machine

/-- READ EVENTS carried out: up to 12 of the oldest records leave the port's queue, and its OVERRUN mark is cleared (R189). -/
def readEvents (p : Port) (count : Nat) (s : State) : Answer × State :=
  let q := s.queue p
  let n := min 12 count
  (done (decide (12 < count))
    (mark q.overrun ++ u8 (q.records.take n).length ++ u8 (q.records.drop n).length
      ++ (q.records.take n).flatMap EventRecord.bytes),
   s.modQueue p fun q => { q with records := q.records.drop n, overrun := false })

/-- READ EVENTS (R189). -/
def execReadEvents (t : Txn) (count : Byte) (s : State) : Host.Outcome State Fault Refusal :=
  .next (request t 3 2 allRoles (readEvents t.port count.toNat) s)

/-- The pairs of a SET FILTER as stored. -/
def filterOf (l : List (Byte × Half)) : List FilterPair := l.map fun x => { kind := x.1.toNat, number := x.2.toNat }

/-- A pair as sent. -/
def FilterPair.bytes (f : FilterPair) : List Byte := u8 f.kind ++ u16 f.number

/-- SET FILTER carried out (R187). -/
def setFilter (p : Port) (l : List (Byte × Half)) (s : State) : Answer × State :=
  if 5 < l.length ∨ l.any (fun x => decide (19 < x.1.toNat)) then (refuse .malformed, s)
  else
    (done false (u8 l.length ++ (filterOf l).flatMap FilterPair.bytes),
     s.modQueue p fun q => { q with filter := filterOf l })

/-- SET FILTER (R187). -/
def execSetFilter (t : Txn) (l : List (Byte × Half)) (s : State) : Host.Outcome State Fault Refusal :=
  .next (request t (3 + 3 * l.length) 3 allRoles (setFilter t.port l) s)

end Sys2Proof.Machine
end

