-- ==== Sys2Proof/Machine/Frames.lean ====
section
/-! DEFINITION. The bytes of the lobby links: the CRC (R161), the frames the 624 sends, and what the bytes of a head report
spell (spec/12, R194). -/

namespace Sys2Proof.Machine

/-! ### CRC -/

/-- One bit entered into the CRC (R161): the polynomial is x^16 + x^12 + x^5 + 1. -/
def crcBit (c : BitVec 16) (b : Bool) : BitVec 16 :=
  if c.getLsbD 15 != b then (c <<< 1) ^^^ 0x1021#16 else c <<< 1

/-- One byte entered into the CRC, most significant bit first (R161). -/
def crcByte (c : BitVec 16) (x : Byte) : BitVec 16 :=
  [7, 6, 5, 4, 3, 2, 1, 0].foldl (fun c i => crcBit c (x.getLsbD i)) c

/-- The CRC of a run of bytes (R161). -/
def crc (b : List Byte) : BitVec 16 := b.foldl crcByte 0xFFFF#16

/-! ### Frames -/

/-- The panel number, the calendar, the flags byte and the page bytes of a frame (spec/12). -/
def headBytes (h : FrameHeader) (flags pageIndex pageCount : Nat) : List Byte :=
  u8 h.panel ++ u8 (h.year - 2000) ++ u8 h.month ++ u8 h.day ++ u8 h.weekday ++ u8 h.hour ++ u8 h.minute ++ u8 h.second
    ++ u8 flags ++ u8 pageIndex ++ u8 pageCount

/-- A bit of a flags or marks byte. -/
def flagBit (place : Nat) (b : Bool) : Nat := if b then 2 ^ place else 0

/-- The 19 bytes of a row entry (spec/12). -/
def Row.bytes (r : Row) : List Byte :=
  u16 r.id ++ u16 r.wallStart ++ u8 r.delay ++ u8 r.auditorium ++ u16 r.nameText ++ u8 r.nameRevision ++ u16 r.titleText
    ++ u8 r.titleRevision ++ u8 r.rating ++ u8 r.format ++ u8 r.state.code ++ u8 r.band.code ++ u16 r.displayed
    ++ u8 (flagBit 0 r.more + flagBit 1 r.fast + flagBit 2 r.stale + flagBit 3 r.suspended + flagBit 4 r.oversold)

/-- The 7 bytes of the notice part: an empty strip sends notice id 0 (spec/12), and zeros after it (log 16). -/
def noticeBytesOf : Option NoticePart → List Byte
  | some n => u8 n.id ++ u8 n.cls.code ++ contentBytes n.content ++ u8 n.revision ++ mark n.on
  | none => [0#8, 0#8, 0#8, 0#8, 0#8, 0#8, 0#8]

/-- The 6 bytes of the trailer field (spec/12); an empty one has zeros after its kind: PRESUMED, log 16. -/
def Trailer.bytes : Trailer → List Byte
  | .empty => [0#8, 0#8, 0#8, 0#8, 0#8, 0#8]
  | .cue clip length token => u8 1 ++ u16 clip ++ u16 length ++ u8 token
  | .play clip token => u8 2 ++ u16 clip ++ u16 0 ++ u8 token

/-- A text block (spec/12). -/
def TextBlock.wire (t : TextBlock) : List Byte := u16 t.id ++ u8 t.revision ++ u8 t.bytes.length ++ t.bytes

/-- The bytes of a frame from its kind byte up to its CRC (spec/12). -/
def Frame.content : Frame → List Byte
  | .identify h => u8 2 ++ headBytes h (flagBit 0 h.running) 0 0
  | .page h b =>
    u8 1 ++ headBytes h (flagBit 0 h.running + flagBit 1 h.blank + flagBit 2 b.takeover + flagBit 3 b.noShowings) b.pageIndex
        b.pageCount
      ++ u8 b.rows.length ++ b.rows.flatMap Row.bytes ++ noticeBytesOf b.notice ++ b.trailer.bytes
      ++ u8 b.texts.length ++ b.texts.flatMap TextBlock.wire

/-- Bytes closed by their CRC, its high byte first (R161). -/
def withCrc (b : List Byte) : List Byte := b ++ Wire.halfBytes (crc b)

/-- A frame as the link carries it: the start mark, the length, the content and the CRC (spec/12, R161). -/
def Frame.bytes (f : Frame) : List Byte := 0xA5#8 :: withCrc (u16 f.content.length ++ f.content)

/-- The blank mark that a frame carries, clear in an IDENTIFY frame (R158). -/
def Frame.blank : Frame → Bool
  | .identify _ => false
  | .page h _ => h.blank

/-! ### Head reports -/

/-- The kind of a clip report (spec/12). -/
inductive ClipReport where
  | none | started | completed | fault
  deriving DecidableEq, Repr

/-- The identity section of a report (spec/12). -/
structure Identity where
  headRows : Nat
  zone : Bool
  generation : Nat
  deriving DecidableEq, Repr

/-- A report of good shape (spec/12). An acknowledgement is a text id and a revision. -/
structure Report where
  panel : Nat
  blank : Bool
  token : Nat
  clip : ClipReport
  acks : List (Nat × Nat)
  identity : Option Identity
  deriving DecidableEq, Repr

/-- The kind of clip report a code names (spec/12). -/
def clipReportOf (b : Byte) : Option ClipReport :=
  if b.toNat = 0 then some .none else if b.toNat = 1 then some .started else if b.toNat = 2 then some .completed
  else if b.toNat = 3 then some .fault else none

/-- n acknowledgements and what follows them. -/
def readAcks : Nat → List Byte → Option (List (Nat × Nat) × List Byte)
  | 0, b => some ([], b)
  | n + 1, x :: y :: r :: b => (readAcks n b).map fun q => (((Wire.half x y).toNat, r.toNat) :: q.1, q.2)
  | _ + 1, _ => none

/-- The end of a report by its kind: kind 8 has nothing more, kind 9 an identity section (spec/12). -/
def readIdentity (kind : Byte) (b : List Byte) : Option (Option Identity) :=
  if kind.toNat = 8 then
    match b with
    | [] => some none
    | _ :: _ => none
  else if kind.toNat = 9 then
    match b with
    | [rows, zone, generation] => some (some { headRows := rows.toNat, zone := zone != 0#8, generation := generation.toNat })
    | _ => none
  else none

/-- The report that the bytes from the kind byte up to the CRC spell; none where the shape test fails (R194). -/
def readReport (b : List Byte) : Option Report :=
  match b with
  | kind :: panel :: blank :: token :: clip :: count :: r =>
    if 1 < blank.toNat ∨ 2 < count.toNat then none
    else
      match clipReportOf clip, readAcks count.toNat r with
      | some c, some q =>
        (readIdentity kind q.2).map fun i =>
          { panel := panel.toNat, blank := blank.toNat = 1, token := token.toNat, clip := c, acks := q.1, identity := i }
      | some _, none => none
      | none, _ => none
  | _ => none

/-- What the bytes that arrived in a window amount to (R159, R194). -/
inductive Arrived where
  /-- No start mark yet, or no complete report. -/
  | incomplete
  /-- A length field outside 6 to 15. -/
  | badLength
  /-- A complete report: what it spells, none where its shape or its CRC is bad. -/
  | complete (r : Option Report)
  deriving DecidableEq, Repr

/-- The report after its start mark (R194). -/
def afterStart (b : List Byte) : Arrived :=
  match b with
  | h :: l :: rest =>
    let n := (Wire.half h l).toNat
    if n < 6 ∨ 15 < n then .badLength
    else if rest.length < n + 2 then .incomplete
    else
      let body := rest.take n
      .complete (if Wire.halfBytes (crc (h :: l :: body)) = (rest.drop n).take 2 then readReport body else none)
  | _ => .incomplete

/-- The bytes before the first start mark discarded, and the report after it (R194). -/
def arrived : List Byte → Arrived
  | [] => .incomplete
  | x :: b => if x = 0xA5#8 then afterStart b else arrived b

end Sys2Proof.Machine
end

