-- ==== Sys2Proof/Machine/Carousels.lean ====
section
/-! DEFINITION. The Carousel Unit: eligibility, takes, SPREAD and LOCKSTEP, and the carousel requests (spec/07). -/

namespace Sys2Proof.Machine

/-! ### Eligibility and takes -/

/-- Whether a showing backs a carousel's entry (R124). -/
def State.backs (s : State) (horizon : Nat) (x : Showing) : Bool :=
  (x.state == .onSale || x.state == .seating) && !s.suspended x && (x.band != .full || s.watch.sales == .stale)
    && decide (x.minutesLeft s.cal.m ≤ horizon)

/-- Whether the wall minute lies in an entry's daypart window; no wall minute is known while the clock is UNSET (R124,
R125). -/
def State.inDaypart (s : State) (window : Nat × Nat) : Bool :=
  s.cal.clock == .running && inWindow window.1 window.2 (s.cal.m % Config.dayMinutes)

/-- Whether an entry is eligible at a take (R124). -/
def State.eligible (s : State) (horizon : Nat) (e : Entry) : Bool :=
  !e.disabled
    && (match e.daypart with
      | some w => s.inDaypart w
      | none => true)
    && (match e.feature with
      | some f => s.showings.any fun x => x.feature == f && s.backs horizon x
      | none => true)

/-- The positions of a ring in the order of a scan: from the cursor, wrapping (R126). -/
def scanOrder (count cursor : Nat) : List Nat := (List.range count).map fun i => (cursor + i) % count

/-- The position that a take of a carousel finds, and its entry (R126). -/
def State.scan (s : State) (c : Carousel) : Option (Nat × Entry) :=
  (scanOrder c.ring.length c.cursor).findSome? fun i =>
    match c.ring[i]? with
    | some e => if s.eligible c.horizon e then some (i, e) else none
    | none => none

/-- What a take cues: an entry's clip, the fallback, or nothing (R126). The round mark is the caller's. -/
def cueOf (k : Nat) (c : Carousel) (found : Option (Nat × Entry)) (roundMark : Bool) : Option Play :=
  match found with
  | some (i, e) =>
    match e.usingAlternate, e.alternate with
    | true, some a => some { carousel := k, source := .entry, ref := some i, clip := a, kind := .alternate, length := e.length, roundMark }
    | true, none => some { carousel := k, source := .entry, ref := some i, clip := e.primary, kind := .primary, length := e.length, roundMark }
    | false, _ => some { carousel := k, source := .entry, ref := some i, clip := e.primary, kind := .primary, length := e.length, roundMark }
  | none =>
    match c.fallback with
    | some f =>
      if c.usable then
        some { carousel := k, source := .fallback, ref := none, clip := f, kind := .fallback, length := c.fallbackLength, roundMark }
      else none
    | none => none

/-- The take outcome after a take (R127). -/
def outcomeOf (found : Option (Nat × Entry)) : TakeOutcome :=
  match found with
  | some _ => .found
  | none => .dry

/-- The take outcome recorded; CAROUSEL DRY is raised where FOUND becomes DRY (R127). -/
def recordTake (k p : Nat) (found : Option (Nat × Entry)) (s : State) : State :=
  let t := s.modCarousel k fun c => { c with outcome := outcomeOf found }
  if found.isNone ∧ (s.carousel k).outcome = .found then raise (.play p) .carouselDry k p t else t

/-- A take in SPREAD mode: the cursor moves past the entry taken (R129). -/
def takeSpread (k p : Nat) (s : State) : State :=
  let c := s.carousel k
  let found := s.scan c
  let t := recordTake k p found s
  let t := t.modCarousel k fun c => { c with cursor := pastEntry (found.map Prod.fst) c.ring.length c.cursor }
  match cueOf k c found false with
  | some r => cuePanel r p t
  | none => t

/-- A round started in LOCKSTEP mode: every member is cued, and the members are its pending set (R130). -/
def startRound (k : Nat) (r : Play) (s : State) : State :=
  let pending := s.members k
  let t := s.modCarousel k fun c =>
    { c with round := some { ref := r.ref, clip := r.clip, kind := r.kind, length := r.length, pending } }
  (panelNumbers.filter (inSet pending)).foldl (fun t p => cuePanel r p t) t

/-- A take in LOCKSTEP mode, made where the carousel has no round in progress (R130). -/
def takeLockstep (k p : Nat) (s : State) : State :=
  let c := s.carousel k
  match c.round with
  | some _ => s
  | none =>
    let found := s.scan c
    let t := recordTake k p found s
    match cueOf k c found true with
    | some r => startRound k r t
    | none => t

/-- The Carousel Unit asked for a take at the composition of a panel whose zone is IDLE (R129, R130, R140 step 2). -/
def takeFor (p : Nat) (s : State) : State :=
  let k := (s.panel p).profile.carousel
  if s.member k p then
    match (s.carousel k).mode with
    | .spread => takeSpread k p s
    | .lockstep => takeLockstep k p s
  else s

/-! ### Entry references -/

/-- The entry references of a carousel changed, in its round and in the play records that name it (R120). -/
def modRefs (k : Nat) (f : Nat → Option Nat) (s : State) : State :=
  let t := s.modCarousel k fun c => { c with round := c.round.map fun r => { r with ref := r.ref.bind f } }
  { t with plays := t.plays.map fun o => o.map fun r => if r.carousel = k then { r with ref := r.ref.bind f } else r }

/-- References at or above an INSERT move up (R121). -/
def refInserted (p i : Nat) : Option Nat := if p ≤ i then some (i + 1) else some i

/-- The reference to a replaced entry is cut to none (R121). -/
def refReplaced (p i : Nat) : Option Nat := if i = p then none else some i

/-- The reference to a dropped entry is cut to none, and those above it move down (R122). -/
def refDropped (p i : Nat) : Option Nat := if i = p then none else if p < i then some (i - 1) else some i

/-! ### PUT ENTRY -/

/-- How PUT ENTRY places an entry (R121). -/
inductive Placement where
  | append | insert | replace
  deriving DecidableEq, Repr

/-- The placement a code names (spec/12). -/
def placementOf (b : Byte) : Option Placement :=
  if b.toNat = 0 then some .append else if b.toNat = 1 then some .insert else if b.toNat = 2 then some .replace else none

/-- A window of equal minutes, or of a minute above 1439 (R121). -/
def windowBad (w : Half × Half) : Bool := 1439 < w.1.toNat || 1439 < w.2.toNat || w.1 == w.2

/-- Check 1 of R121, with the form checks of R192. -/
def State.entryMalformed (s : State) (f : EntryFields) : Bool :=
  f.spare != 0 || carouselBad f.carousel.toNat || (placementOf f.placement).isNone || clipBad f.primary
    || ifPresent clipBad f.alternate || ifPresent (fun x => featureBad x.toNat) f.feature || ifPresent windowBad f.daypart
    || (placementOf f.placement == some .insert && decide ((s.carousel f.carousel.toNat).ring.length < f.position.toNat))

/-- The checks of R121 in their order; none where the request passes them. -/
def State.entryRefusal (s : State) (f : EntryFields) : Option Result :=
  let count := (s.carousel f.carousel.toNat).ring.length
  if s.entryMalformed f then some .malformed
  else if placementOf f.placement = some .replace ∧ count ≤ f.position.toNat then some .unknown
  else if ifPresent (fun x => (s.feature? x.toNat).isNone) f.feature then some .unknown
  else if placementOf f.placement ≠ some .replace ∧ Config.ringPlaces ≤ count then some .full
  else none

/-- The length of an entry as stored (R121). -/
def entryLength (f : EntryFields) : Nat := clamp 5 600 f.length.toNat

/-- The entry that PUT ENTRY places, its marks clear (R121). -/
def newEntry (f : EntryFields) : Entry :=
  { primary := f.primary.toNat, alternate := f.alternate.map BitVec.toNat, usingAlternate := false, disabled := false,
    length := entryLength f, feature := f.feature.map BitVec.toNat,
    daypart := f.daypart.map fun w => (w.1.toNat, w.2.toNat) }

/-- An entry placed in a ring (R121). -/
def placeEntry (how : Placement) (k p : Nat) (e : Entry) (s : State) : State :=
  match how with
  | .append => s.modCarousel k fun c => { c with ring := c.ring ++ [e] }
  | .insert =>
    modRefs k (refInserted p) (s.modCarousel k fun c =>
      { c with ring := c.ring.insertIdx p e, cursor := if p < c.cursor then c.cursor + 1 else c.cursor })
  | .replace => modRefs k (refReplaced p) (s.modCarousel k fun c => { c with ring := c.ring.set p e })

/-- The position at which an entry stands once placed. -/
def placedAt (how : Placement) (count p : Nat) : Nat :=
  match how with
  | .append => count
  | .insert => p
  | .replace => p

/-- PUT ENTRY carried out (R121). -/
def putEntry (f : EntryFields) (s : State) : Answer × State :=
  match s.entryRefusal f, placementOf f.placement with
  | some r, _ => (refuse r, s)
  | none, none => (refuse .malformed, s)
  | none, some how =>
    let k := f.carousel.toNat
    let t := placeEntry how k f.position.toNat (newEntry f) s
    (done (entryLength f != f.length.toNat)
      (u8 (placedAt how (s.carousel k).ring.length f.position.toNat) ++ u8 (t.carousel k).ring.length), t)

/-- PUT ENTRY (R121). -/
def execPutEntry (t : Txn) (f : EntryFields) (s : State) : Host.Outcome State Fault Refusal :=
  .next (request t ((Wire.entryBytes f).length + 2) 80 [.schedule, .service] (putEntry f) s)

/-! ### DROP ENTRY -/

/-- The cursor after the entry at a position has been dropped, in the two steps of R122. -/
def cursorDropped (p cursor count : Nat) : Nat :=
  let c := if p < cursor then cursor - 1 else cursor
  if count ≤ c then 0 else c

/-- DROP ENTRY carried out (R122). -/
def dropEntry (k p : Nat) (s : State) : Answer × State :=
  if carouselBad k || 31 < p then (refuse .malformed, s)
  else if (s.carousel k).ring.length ≤ p then (refuse .unknown, s)
  else
    let t := modRefs k (refDropped p) (s.modCarousel k fun c =>
      { c with ring := c.ring.eraseIdx p, cursor := cursorDropped p c.cursor (c.ring.length - 1) })
    (done false (u8 (t.carousel k).ring.length), t)

/-- DROP ENTRY (R122). -/
def execDropEntry (t : Txn) (carousel position : Byte) (s : State) : Host.Outcome State Fault Refusal :=
  .next (request t 4 81 [.schedule, .service] (dropEntry carousel.toNat position.toNat) s)

/-! ### SET CAROUSEL -/

/-- A carousel outside 1 to 8, an unknown mode, a fallback clip above 4095 (log 31) or a spare presence bit (R123, R192). -/
def carouselMalformed (f : CarouselFields) : Bool :=
  f.spare != 0 || carouselBad f.carousel.toNat || ifPresent (fun m => 1 < m.toNat) f.mode
    || ifPresent (fun c => 4095 < c.toNat) f.fallback

/-- The mode a code names. -/
def modeOf (b : Byte) : Mode := if b.toNat = 0 then .spread else .lockstep

/-- A carousel with the settings that SET CAROUSEL carries (R123). -/
def Carousel.withSettings (f : CarouselFields) (c : Carousel) : Carousel :=
  { c with
    mode := f.mode.elim c.mode modeOf
    fallback := match f.fallback with
      | some x => if x.toNat = 0 then none else some x.toNat
      | none => c.fallback
    usable := match f.fallback with
      | some x => x.toNat != 0
      | none => c.usable
    fallbackLength := f.length.elim c.fallbackLength fun x => clamp 5 600 x.toNat
    horizon := f.horizon.elim c.horizon fun x => clamp 30 720 x.toNat }

/-- Whether SET CAROUSEL clamps a value (R123). -/
def carouselClamped (f : CarouselFields) : Bool :=
  ifPresent (fun x => clamp 5 600 x.toNat != x.toNat) f.length || ifPresent (fun x => clamp 30 720 x.toNat != x.toNat) f.horizon

/-- A play of a carousel ended by a change of its mode: the zone is IDLE, the record is discarded, and no outcome is handed
(R123, R151). -/
def endModePlay (k p : Nat) (s : State) : State :=
  match s.play? p with
  | some r => if r.carousel = k then clearZone p (s.setPlay p none) else s
  | none => s

/-- The carousel's work in its old mode ended (R123). -/
def endMode (k : Nat) (s : State) : State :=
  panelNumbers.foldl (fun t p => endModePlay k p t) (s.modCarousel k fun c => { c with round := none })

/-- SET CAROUSEL carried out (R123). -/
def setCarousel (f : CarouselFields) (s : State) : Answer × State :=
  if carouselMalformed f then (refuse .malformed, s)
  else
    let k := f.carousel.toNat
    let c := (s.carousel k).withSettings f
    let t := s.modCarousel k (Carousel.withSettings f)
    let t := if c.mode = (s.carousel k).mode then t else endMode k t
    (done (carouselClamped f)
      (u8 c.mode.code ++ wideOrNone c.fallback ++ u16 c.fallbackLength ++ mark c.usable ++ u16 c.horizon), t)

/-- SET CAROUSEL (R123). -/
def execSetCarousel (t : Txn) (f : CarouselFields) (s : State) : Host.Outcome State Fault Refusal :=
  .next (request t ((Wire.carouselBytes f).length + 2) 82 [.schedule, .service] (setCarousel f) s)

/-! ### QUERY CAROUSEL -/

/-- A round as sent: seven bytes (spec/12). -/
def roundBytes : Option Round → List Byte
  | some r => mark true ++ refOrNone r.ref ++ u16 r.clip ++ u8 r.kind.code ++ panelSetBytes r.pending
  | none => [0#8, 0#8, 0#8, 0#8, 0#8, 0#8, 0#8]

/-- An entry as sent: its position, then its fields and marks (R134) in the order of R119's table: DEDUCED, log 41. -/
def entryData (i : Nat) (e : Entry) : List Byte :=
  u8 i ++ u16 e.primary ++ wideOrNone e.alternate ++ mark e.usingAlternate ++ mark e.disabled ++ u16 e.length
    ++ idOrNone e.feature
    ++ match e.daypart with
      | some w => u16 w.1 ++ u16 w.2
      | none => [0xFF#8, 0xFF#8, 0xFF#8, 0xFF#8]

/-- A panel's play as sent where its record names carousel k (R134). -/
def State.playData (s : State) (k p : Nat) : Option (List Byte) :=
  match s.play? p with
  | some r => if r.carousel = k then some (u8 p ++ u16 r.clip ++ u8 r.kind.code) else none
  | none => none

/-- The data of QUERY CAROUSEL (R134, R193). The plays stand in ascending panel number: DESIGN CHOICE, log 38. -/
def State.carouselData (s : State) (k start : Nat) : List Byte :=
  let c := s.carousel k
  let plays := panelNumbers.filterMap (s.playData k)
  let entries := ((List.range c.ring.length).zip c.ring).drop start |>.take 8
  u8 c.mode.code ++ u16 c.horizon ++ wideOrNone c.fallback ++ u16 c.fallbackLength ++ mark c.usable
    ++ u8 c.ring.length ++ u8 c.cursor ++ u8 c.outcome.code ++ roundBytes c.round
    ++ u8 plays.length ++ plays.flatten ++ panelSetBytes (s.members k)
    ++ u8 entries.length ++ entries.flatMap fun x => entryData x.1 x.2

/-- QUERY CAROUSEL carried out (R134). -/
def queryCarousel (k start : Nat) (s : State) : Answer × State :=
  if carouselBad k || 31 < start then (refuse .malformed, s)
  else (done false (s.carouselData k start), s)

/-- QUERY CAROUSEL (R134). -/
def execQueryCarousel (t : Txn) (carousel start : Byte) (s : State) : Host.Outcome State Fault Refusal :=
  .next (request t 4 8 allRoles (queryCarousel carousel.toNat start.toNat) s)

end Sys2Proof.Machine
end

