-- ==== Sys2Proof/Machine/Pages.lean ====
section
/-! DEFINITION. The Page Composer: the row list and its pages, the notice strip, the text blocks, and the composition of a
frame (spec/08). -/

namespace Sys2Proof.Machine

/-! ### The row list -/

/-- The states visible on a layout (R141). -/
def Layout.shows (l : Layout) (st : ShowState) : Bool :=
  match l, st with
  | .board, .onSale | .board, .seating | .board, .started | .board, .cancelled => true
  | .board, .planned | .board, .closed | .board, .ended => false
  | .feature, .onSale | .feature, .seating | .feature, .started => true
  | .feature, .planned | .feature, .closed | .feature, .ended | .feature, .cancelled => false
  | .desk, .ended => false
  | .desk, .planned | .desk, .onSale | .desk, .seating | .desk, .started | .desk, .closed | .desk, .cancelled => true
  | .notice, _ => false

/-- Whether a profile's auditorium set takes an auditorium: the empty set takes all (R138, R141). -/
def Profile.takesAuditorium (f : Profile) (a : Nat) : Bool := f.auditoriums == 0 || f.auditoriums.getLsbD (a - 1)

/-- Whether a profile's features take a feature (R141). -/
def Profile.takesFeature (f : Profile) (x : Nat) : Bool :=
  (f.featureA == 0 && f.featureB == 0) || (f.featureA != 0 && f.featureA == x) || (f.featureB != 0 && f.featureB == x)

/-- The three tests of R141. -/
def Profile.shows (f : Profile) (x : Showing) : Bool :=
  f.takesAuditorium x.auditorium && f.takesFeature x.feature && f.layout.shows x.state

/-- The display order: by (E, auditorium, id) (R36). -/
def Showing.before (x y : Showing) : Bool :=
  decide (x.effective < y.effective) ||
    (x.effective == y.effective && (decide (x.auditorium < y.auditorium) || (x.auditorium == y.auditorium && decide (x.id < y.id))))

/-- A showing put in its place in the display order. -/
def insertRow (x : Showing) : List Showing → List Showing
  | [] => [x]
  | y :: l => if y.before x then y :: insertRow x l else x :: y :: l

/-- A panel's row list (R141). -/
def State.rowList (s : State) (p : Nat) : List Showing :=
  (s.showings.filter (s.panel p).profile.shows).foldr insertRow []

/-! ### Pages and strip -/

/-- The effective rows per page (R143). A panel whose head was never identified composes nothing, and what QUERY PANEL reports
for it is a free value (log 18). -/
def State.effectiveRows (s : State) (p : Nat) : Nat :=
  match (s.link p).headRows with
  | some h => min (s.panel p).profile.rows h
  | none => Config.effectiveRows (s.panel p).profile.rows

/-- The page count max(1, ceil(n / R)) (R143). -/
def pageCountOf (n r : Nat) : Nat := max 1 ((n + (r - 1)) / r)

/-- An index and its dwell count at a composition: a count of 0 advances the index and restarts the dwell, and an index at or
above the number of places becomes 0 (R143, R144). -/
def turn (index count dwell places : Nat) : Nat × Nat :=
  let next := if count = 0 then (index + 1, dwell) else (index, count)
  (if places ≤ next.1 then 0 else next.1, next.2)

/-- The classes of the strip in their order (R144). -/
def stripClasses : List NoticeClass := [.desk, .showing, .info]

/-- A panel's strip: by class, then by activation (R144). -/
def State.strip (s : State) (p : Nat) : List Notice :=
  stripClasses.flatMap fun c =>
    s.notices.activation.filterMap fun id => (s.notice? id).filter fun n => n.cls == c && n.covers p

/-- The page and notice indexes and counts brought up to date (R140 step 1). -/
def turnPanel (p : Nat) (s : State) : State :=
  let places := pageCountOf (s.rowList p).length (s.effectiveRows p)
  let strip := (s.strip p).length
  s.modPanel p fun c =>
    let page := turn c.pageIndex c.pageCount c.profile.pageDwell places
    let note := turn c.noticeIndex c.noticeCount c.profile.noticeDwell strip
    { c with pageIndex := page.1, pageCount := page.2, noticeIndex := note.1, noticeCount := note.2 }

/-- The rows of a page (R143). -/
def pageRows (index r : Nat) (l : List Showing) : List Showing := (l.drop (index * r)).take r

/-- The rows of the other pages (R152). -/
def otherRows (index r : Nat) (l : List Showing) : List Showing := l.take (index * r) ++ l.drop (index * r + r)

/-! ### What a frame carries -/

/-- The revision in the store (R27). -/
def State.revision (s : State) (id : Nat) : Nat := (s.text id).revision

/-- A row entry (R142). -/
def State.row (s : State) (layout : Layout) (x : Showing) : Row :=
  let a := s.auditorium x.auditorium
  let f := (s.feature? x.feature).getD { title := 0, rating := 0, runtime := 0 }
  let stale := s.watch.sales == .stale
  { id := x.id, wallStart := x.wallStart, delay := x.delay, auditorium := x.auditorium,
    nameText := a.name, nameRevision := s.revision a.name, titleText := f.title, titleRevision := s.revision f.title,
    rating := f.rating, format := x.format, state := x.state, band := x.band,
    displayed := if stale then 0 else displayed s.figure.dc x.left, more := !stale && moreMark s.figure.dc x.left,
    fast := !stale && x.fast, stale, suspended := s.suspended x, oversold := layout == .desk && x.oversold }

/-- The notice part of a frame (R144, R145). -/
def State.noticePart (s : State) (n : Notice) : NoticePart :=
  { id := n.id, cls := n.cls, content := n.content,
    revision := match n.content with
      | .text id => s.revision id
      | .system _ _ => 0
    on := n.on }

/-- The trailer field (R148). -/
def Zone.trailer : Zone → Trailer
  | .idle => .empty
  | .cued c _ => .cue c.clip c.length c.token
  | .playing c _ => .play c.clip c.token

/-- The header of a frame on a panel's link (R140 step 4, R158). -/
def State.header (s : State) (p : Nat) (blank : Bool) : FrameHeader :=
  { panel := p, year := s.cal.year, month := s.cal.month, day := s.cal.day, weekday := s.cal.weekday, hour := s.cal.hour,
    minute := s.cal.minute, second := s.cal.second, running := s.cal.clock == .running, blank }

/-! ### Text blocks -/

/-- A text id put in its place, lowest first, and once (R152). -/
def insertId (i : Nat) : List Nat → List Nat
  | [] => [i]
  | j :: l => if i < j then i :: j :: l else if i = j then j :: l else j :: insertId i l

/-- Text ids lowest first. -/
def lowestFirst (l : List Nat) : List Nat := l.foldr insertId []

/-- The texts a row references (R152). -/
def State.rowTexts (s : State) (x : Showing) : List Nat :=
  (s.auditorium x.auditorium).name :: ((s.feature? x.feature).map Feature.title).toList

/-- The text a notice's content references, if it is one. -/
def Notice.texts (n : Notice) : List Nat :=
  match n.content with
  | .text id => [id]
  | .system _ _ => []

/-- Up to two texts of the groups in their order, each group lowest first, a text that is marked current or chosen already
skipped (R152). -/
def chooseTexts (marked : List Nat) (groups : List (List Nat)) : List Nat :=
  ((groups.flatMap lowestFirst).foldl
    (fun acc i => if marked.contains i || acc.contains i then acc else acc ++ [i]) []).take 2

/-- A text block as it stands (R152). -/
def State.textBlock (s : State) (id : Nat) : TextBlock :=
  { id, revision := (s.text id).revision, bytes := (s.text id).bytes }

/-! ### The body -/

/-- The body in takeover form (R145): no rows and no strip notice. The texts of the row list and of the strip count as those of
other pages and other notices: DEDUCED, log 20. -/
def State.takeoverBody (s : State) (p : Nat) (n : Notice) : PageBody :=
  let c := s.panel p
  let list := s.rowList p
  { takeover := true, noShowings := false, pageIndex := c.pageIndex, pageCount := pageCountOf list.length (s.effectiveRows p),
    rows := [], notice := some (s.noticePart n), trailer := c.zone.trailer,
    texts := (chooseTexts c.current [n.texts, list.flatMap s.rowTexts, (s.strip p).flatMap Notice.texts]).map s.textBlock }

/-- The body in normal form (R141 to R144, R152). -/
def State.normalBody (s : State) (p : Nat) : PageBody :=
  let c := s.panel p
  let list := s.rowList p
  let r := s.effectiveRows p
  let rows := pageRows c.pageIndex r list
  let strip := s.strip p
  let note := strip[c.noticeIndex]?
  { takeover := false, noShowings := list.isEmpty && c.profile.layout != .notice,
    pageIndex := c.pageIndex, pageCount := pageCountOf list.length r,
    rows := rows.map (s.row c.profile.layout), notice := note.map s.noticePart, trailer := c.zone.trailer,
    texts := (chooseTexts c.current
      [rows.flatMap s.rowTexts ++ (note.map Notice.texts).getD [],
       (otherRows c.pageIndex r list).flatMap s.rowTexts,
       (strip.eraseIdx c.noticeIndex).flatMap Notice.texts]).map s.textBlock }

/-- The notice that has taken the panel over. -/
def State.takeoverNotice (s : State) (p : Nat) : Option Notice := (s.takeover p).bind s.notice?

/-- The body of a panel's PAGE frame (R140 step 3). -/
def State.body (s : State) (p : Nat) : PageBody :=
  match s.takeoverNotice p with
  | some n => s.takeoverBody p n
  | none => s.normalBody p

/-! ### The composition -/

/-- The first frame that carries a cue starts its deadline, 4 seconds on (R148). -/
def firstCueFrame (now : Nat) (p : Nat) (s : State) : State :=
  s.modPanel p fun c =>
    match c.zone with
    | .cued q none => { c with zone := .cued q (some (now + 4000)) }
    | .cued _ (some _) => c
    | .playing _ _ => c
    | .idle => c

/-- A take at a composition whose zone is IDLE (R140 step 2), be it the first composition after a stop: of a panel that is a member
again by then, that frame carries the new cue, where R151 says that the next frame carries an empty trailer field. DEDUCED, log 48. -/
def takeIfIdle (p : Nat) (s : State) : State :=
  match (s.panel p).zone with
  | .idle => takeFor p s
  | .cued _ _ => s
  | .playing _ _ => s

/-- The composition of a panel's PAGE frame at a frame time (R140). -/
def compose (now : Nat) (p : Nat) (s : State) : State × Frame :=
  let t := firstCueFrame now p (takeIfIdle p (turnPanel p s))
  (t, .page (t.header p (t.panel p).hushed) (t.body p))

end Sys2Proof.Machine
end

