-- ==== Sys2Proof/Machine/Links.lean ====
section
/-! DEFINITION. The Link Controller: frame times, reply windows, head states and reports; and the trailer zone's reports and
deadlines (spec/09, R149, R150). -/

namespace Sys2Proof.Machine

/-! ### Head states -/

/-- Whether a head state leaves the panel with an IDLE zone and an empty text-current set (R154). -/
def HeadState.empties : HeadState → Bool
  | .seeking | .lost | .absent => true
  | .live | .degraded => false

/-- The text-current set of a panel emptied (R154). -/
def clearTexts (p : Nat) (s : State) : State := s.modPanel p fun c => { c with current := [] }

/-- A head state entered: PANEL STATE is raised, and the Page Composer and the Carousel Unit act (R154, R169). -/
def enterHead (p : Nat) (h : HeadState) (s : State) : State :=
  let t := raise (.link p) .panelState p h.code (s.modLink p fun l => { l with head := h })
  judgeMember p (if h.empties then clearTexts p (stopZone p t) else t)

/-- A miss (R163). -/
def miss (p : Nat) (s : State) : State :=
  let l := s.link p
  match l.head with
  | .live =>
    let t := s.modLink p fun l => { l with missRun := l.missRun + 1 }
    if 3 ≤ l.missRun + 1 then enterHead p .degraded t else t
  | .degraded =>
    let t := s.modLink p fun l => { l with missRun := l.missRun + 1 }
    if 12 ≤ l.missRun + 1 then enterHead p .lost (t.modLink p fun l => { l with lostCount := 0 }) else t
  | .seeking => s
  | .lost => s
  | .absent => s

/-- The reply window closed (R159). -/
def closeWindow (p : Nat) (s : State) : State := s.modLink p fun l => { l with window := none }

/-- The CHECK fault latched (R160). -/
def setCheck (p : Nat) (s : State) : State := s.modLink p fun l => { l with checkFault := true }
/-- The IDENTITY fault latched (R160). -/
def setIdentity (p : Nat) (s : State) : State := s.modLink p fun l => { l with identityFault := true }
/-- The TIMEOUT fault latched (R159). -/
def setTimeout (p : Nat) (s : State) : State := s.modLink p fun l => { l with timeoutFault := true }

/-! ### Frames -/

/-- The core clock at an instant it has reached. Log 2. -/
def reach (n : Nat) (s : State) : State := { s with core := { s.core with now := max s.core.now n } }

/-- A frame sent on a link: its blank mark is stored and the reply window opens (R158, R159). -/
def sendFrame (p : Nat) (f : Frame) (s : State) : State :=
  s.modLink p fun l =>
    { l with
      window := some (match f with
        | .identify _ => FrameKind.identify
        | .page _ _ => FrameKind.page)
      lastBlank := some f.blank
      lastFrame := some f }

/-- An IDENTIFY frame sent (R158). -/
def sendIdentify (p : Nat) (s : State) : State := sendFrame p (.identify (s.header p false)) s

/-- What a link does at its frame time by its head state (R158). -/
def frameAction (now : Nat) (p : Nat) (s : State) : State :=
  match (s.link p).head with
  | .live | .degraded =>
    let c := compose now p s
    sendFrame p c.2 c.1
  | .seeking => sendIdentify p s
  | .lost =>
    if 8 ≤ (s.link p).lostCount + 1 then sendIdentify p (s.modLink p fun l => { l with lostCount := 0 })
    else s.modLink p fun l => { l with lostCount := l.lostCount + 1 }
  | .absent => s

/-- A link's frame time: the core clock reaches it, the next one is set a frame period on, and the link acts (R157, R158). A
link without a next frame time has none. -/
def frameTime (p : Nat) (s : State) : State :=
  match (s.link p).nextFrame with
  | none => s
  | some n =>
    settle (frameAction n p ((reach n s).modLink p fun l => { l with nextFrame := some (n + s.framePeriod) }))

/-- FRAME_TIME (R158). -/
def execFrameTime (p : Link) (s : State) : Host.Outcome State Fault Refusal := .next (frameTime (panelOf p) s)

/-- LOST_IDENTIFY: the frame time at which a LOST link's frame count reaches 8 (R158). Log 1. -/
def execLostIdentify (p : Link) (s : State) : Host.Outcome State Fault Refusal :=
  .next (if (s.link (panelOf p)).head = .lost ∧ 7 ≤ (s.link (panelOf p)).lostCount then frameTime (panelOf p) s else s)

/-! ### The reply window -/

/-- The expiry of an open window: a miss, with TIMEOUT latched in LIVE and DEGRADED (R159). -/
def windowExpiry (p : Nat) (s : State) : State :=
  match (s.link p).window with
  | none => s
  | some _ =>
    let t := closeWindow p s
    settle (miss p (if (s.link p).head.present then setTimeout p t else t))

/-- REPLY_WINDOW_EXPIRY (R159). -/
def execReplyWindowExpiry (p : Link) (s : State) : Host.Outcome State Fault Refusal := .next (windowExpiry (panelOf p) s)

/-- A report that fails the shape test: CHECK is latched and a miss counted (R160, R194). -/
def badShape (p : Nat) (s : State) : State := miss p (setCheck p (closeWindow p s))

/-- REPORT_LENGTH_FAILURE: a length field outside 6 to 15 arrives in an open window (R194). A length within it, or a closed
window, changes nothing (log 22). -/
def execReportLengthFailure (p : Link) (length : Half) (s : State) : Host.Outcome State Fault Refusal :=
  .next <|
    match (s.link (panelOf p)).window with
    | none => s
    | some _ => if length.toNat < 6 ∨ 15 < length.toNat then settle (badShape (panelOf p) s) else s

/-! ### What a valid report hands on -/

/-- A clip report at the zone (R149): the report's token must be the current cue's. -/
def clipReport (p token : Nat) (r : ClipReport) (s : State) : State :=
  match (s.panel p).zone, r with
  | .idle, _ => s
  | .cued q _, r =>
    if q.token ≠ token then s
    else
      match r with
      | .none => s
      | .started => s.modPanel p fun c => { c with zone := .playing q (s.core.now + 1000 * q.length + 5000) }
      | .completed => endPlay p .completed s
      | .fault => endPlay p .fault s
  | .playing q _, r =>
    if q.token ≠ token then s
    else
      match r with
      | .none => s
      | .started => s
      | .completed => endPlay p .completed s
      | .fault => endPlay p .fault s

/-- One text acknowledgement: the mark is set where the text is present at that revision (R30, R153). -/
def takeAck (p : Nat) (s : State) (a : Nat × Nat) : State :=
  if (s.text a.1).present ∧ (s.text a.1).revision = a.2 then s.modPanel p fun c => { c with current := insertId a.1 c.current }
  else s

/-- The clip report, the acknowledgements and the blank state of a valid report (R164 steps 2 to 4). -/
def takeStatus (p : Nat) (r : Report) (s : State) : State :=
  let t := r.acks.foldl (takeAck p) (clipReport p r.token r.clip s)
  t.modLink p fun l => { l with reportedBlank := some r.blank }

/-- A valid report without an identity section in LIVE or DEGRADED (R164). -/
def takeReport (p : Nat) (r : Report) (s : State) : State :=
  let t := s.modLink p fun l => { l with missRun := 0 }
  takeStatus p r (if (s.link p).head = .degraded then enterHead p .live t else t)

/-! ### Taking an identity -/

/-- Whether the profile asks for more rows than the head has (R167). -/
def State.rowsClamped (s : State) (p rows : Nat) : Bool := decide (rows < (s.panel p).profile.rows)

/-- Whether the profile names a carousel and the head has no trailer zone (R167). -/
def State.zoneDisabled (s : State) (p : Nat) (zone : Bool) : Bool := (s.panel p).profile.carousel != 0 && !zone

/-- The clamps judged at an identity: one LAYOUT CLAMPED where either applies (R167). -/
def judgeClamps (p : Nat) (i : Identity) (s : State) : State :=
  let kind := (if s.rowsClamped p i.headRows then 1 else 0) + (if s.zoneDisabled p i.zone then 2 else 0)
  if kind = 0 then s else raise (.link p) .layoutClamped p (i.headRows + 256 * kind) s

/-- The identity stored, with the run and the count of R165 set to 0. -/
def storeIdentity (p : Nat) (i : Identity) (s : State) : State :=
  s.modLink p fun l =>
    { l with
      headRows := some i.headRows
      zonePresent := some i.zone
      generation := i.generation
      generationKnown := true
      missRun := 0
      lostCount := 0 }

/-- A changed generation told of (R168): before is the link as it was before the identity was stored. -/
def tellGeneration (p : Nat) (before : LinkContext) (i : Identity) (s : State) : State :=
  if before.generationKnown ∧ before.generation ≠ i.generation then raise (.link p) .panelState p (256 + i.generation) s else s

/-- An identity taken (R165): stored, the head LIVE, the generation and the clamps judged, the status handed on. -/
def takeIdentity (p : Nat) (i : Identity) (r : Report) (s : State) : State :=
  let t := enterHead p .live (storeIdentity p i s)
  let t := if i.zone then t else stopZone p t
  takeStatus p r (judgeClamps p i (tellGeneration p (s.link p) i t))

/-- A valid report taken by the head state in which it arrives (R164, R165, R166). -/
def takeValid (p : Nat) (r : Report) (s : State) : State :=
  match (s.link p).head, r.identity with
  | .live, none => takeReport p r s
  | .degraded, none => takeReport p r s
  | .live, some i => takeIdentity p i r (enterHead p .seeking s)
  | .degraded, some i => takeIdentity p i r (enterHead p .seeking s)
  | .seeking, some i => takeIdentity p i r s
  | .lost, some i => takeIdentity p i r s
  | .seeking, none => s
  | .lost, none => s
  | .absent, _ => s

/-- A complete report of good shape judged by the tests 2 to 4 of R160, in a window that answers a frame of the given kind. -/
def judgeReport (p : Nat) (kind : FrameKind) (r : Report) (s : State) : State :=
  if r.panel ≠ p then miss p (setIdentity p s)
  else if ifPresent (fun i : Identity => i.headRows = 0 || 16 < i.headRows) r.identity then miss p (setIdentity p s)
  else if kind = .identify ∧ r.identity = none then setIdentity p s
  else takeValid p r s

/-- The bytes of a report arriving on a link (R159, R160, R194). Bytes outside a window, and bytes that do not complete a
report, change nothing. -/
def headReport (p : Nat) (bytes : List Byte) (s : State) : State :=
  match (s.link p).window with
  | none => s
  | some kind =>
    match arrived bytes with
    | .incomplete => s
    | .badLength => settle (badShape p s)
    | .complete none => settle (badShape p s)
    | .complete (some r) => settle (judgeReport p kind r (closeWindow p s))

/-- HEAD_REPORT (R160). -/
def execHeadReport (p : Link) (bytes : List Byte) (s : State) : Host.Outcome State Fault Refusal :=
  .next (headReport (panelOf p) bytes s)

/-! ### The zone deadline -/

/-- The zone deadline reached (R150). A zone without a deadline has none to reach. -/
def zoneDeadline (p : Nat) (s : State) : State :=
  match (s.panel p).zone with
  | .idle => s
  | .cued _ none => s
  | .cued _ (some d) => settle (endPlay p .cueTimeout (reach d s))
  | .playing _ d => settle (endPlay p .playTimeout (reach d s))

/-- ZONE_DEADLINE (R150). -/
def execZoneDeadline (p : Link) (s : State) : Host.Outcome State Fault Refusal := .next (zoneDeadline (panelOf p) s)

end Sys2Proof.Machine
end

