-- ==== Sys2Proof/Machine/Panels.lean ====
section
/-! DEFINITION. SET PANEL and its effects, and QUERY PANEL (R138, R139, R170, R171). -/

namespace Sys2Proof.Machine

/-! ### SET PANEL -/

/-- The refusals of R138, with the form checks of R192. -/
def panelMalformed (f : PanelFields) : Bool :=
  panelBad f.panel.toNat || markBad f.enabled || 3 < f.layout.toNat || 128 < f.featureA.toNat || 128 < f.featureB.toNat
    || 8 < f.carousel.toNat || markBad f.alwaysLit || (f.layout.toNat = 1 && f.featureA.toNat = 0 && f.featureB.toNat = 0)

/-- The layout a code names (spec/12). -/
def layoutOf (b : Byte) : Layout :=
  if b.toNat = 0 then .board else if b.toNat = 1 then .feature else if b.toNat = 2 then .desk else .notice

/-- The profile that SET PANEL stores (R138). -/
def profileOf (f : PanelFields) : Profile :=
  { enabled := f.enabled.toNat = 1, layout := layoutOf f.layout, auditoriums := f.auditoriums, featureA := f.featureA.toNat,
    featureB := f.featureB.toNat, rows := clamp 1 16 f.rows.toNat, pageDwell := clamp 3 60 f.pageDwell.toNat,
    noticeDwell := clamp 3 30 f.noticeDwell.toNat, carousel := f.carousel.toNat, alwaysLit := f.alwaysLit.toNat = 1 }

/-- Whether SET PANEL clamps a value (R138). -/
def panelClamped (f : PanelFields) : Bool :=
  clamp 1 16 f.rows.toNat != f.rows.toNat || clamp 3 60 f.pageDwell.toNat != f.pageDwell.toNat
    || clamp 3 30 f.noticeDwell.toNat != f.noticeDwell.toNat

/-- A profile replaced: a dwell count above the new dwell is set to it (R139). -/
def Panel.withProfile (q : Profile) (c : Panel) : Panel :=
  { c with profile := q, pageCount := min c.pageCount q.pageDwell, noticeCount := min c.noticeCount q.noticeDwell }

/-- The link of a panel enabled: SEEKING, its first frame time one period on (R170). -/
def enableLink (p : Nat) (s : State) : State :=
  enterHead p .seeking (s.modLink p fun l => { l with missRun := 0, nextFrame := some (s.core.now + s.framePeriod) })

/-- The link of a panel disabled: ABSENT, its window closed with no miss, its frame time none (R170). -/
def disableLink (p : Nat) (s : State) : State :=
  enterHead p .absent (s.modLink p fun l => { l with missRun := 0, lostCount := 0, nextFrame := none, window := none })

/-- The link handed a change of the enabled mark (R139, R170). -/
def handEnabled (before after : Bool) (p : Nat) (s : State) : State :=
  match before, after with
  | false, true => enableLink p s
  | true, false => disableLink p s
  | true, true => s
  | false, false => s

/-- A profile as sent (R138). -/
def profileBytes (p : Nat) (q : Profile) : List Byte :=
  u8 p ++ mark q.enabled ++ u8 q.layout.code ++ u24 q.auditoriums.toNat ++ u8 q.featureA ++ u8 q.featureB ++ u8 q.rows
    ++ u8 q.pageDwell ++ u8 q.noticeDwell ++ u8 q.carousel ++ mark q.alwaysLit

/-- SET PANEL carried out (R138, R139): the profile, then the link, the hushed mark and the membership, in that order (log 32). -/
def setPanel (f : PanelFields) (s : State) : Answer × State :=
  if panelMalformed f then (refuse .malformed, s)
  else
    let p := f.panel.toNat
    let q := profileOf f
    let t := s.modPanel p (Panel.withProfile q)
    let t := handEnabled (s.panel p).profile.enabled q.enabled p t
    (done (panelClamped f) (profileBytes p q), judgeMember p (judgeHush p t))

/-- SET PANEL (R138). -/
def execSetPanel (t : Txn) (f : PanelFields) (s : State) : Host.Outcome State Fault Refusal :=
  .next (request t 15 96 [.schedule, .service] (setPanel f) s)

/-! ### QUERY PANEL -/

/-- The zone state's code (spec/12). -/
def Zone.code : Zone → Nat
  | .idle => 0
  | .cued _ _ => 1
  | .playing _ _ => 2

/-- The current cue of a zone. -/
def Zone.cue : Zone → Option Cue
  | .idle => none
  | .cued q _ => some q
  | .playing q _ => some q

/-- The deadline of a zone. -/
def Zone.deadline : Zone → Option Nat
  | .idle => none
  | .cued _ d => d
  | .playing _ d => some d

/-- The current cue as sent: clip, length and token, zeros where there is none (log 16). -/
def cueBytes : Option Cue → List Byte
  | some q => u16 q.clip ++ u16 q.length ++ u8 q.token
  | none => u16 0 ++ u16 0 ++ u8 0

/-- The composition context of QUERY PANEL (R171). The page count, which R137 does not store, is computed as at a composition: DEDUCED,
log 39. -/
def State.contextData (s : State) (p : Nat) : List Byte :=
  let c := s.panel p
  u8 c.pageIndex ++ u8 (pageCountOf (s.rowList p).length (s.effectiveRows p)) ++ u8 c.noticeIndex ++ u8 c.pageCount
    ++ u8 c.noticeCount ++ mark c.hushed ++ u8 c.zone.code ++ u8 c.lastToken ++ cueBytes c.zone.cue
    ++ minuteOrAbsent (c.zone.deadline.map fun d => d - s.core.now) ++ u16 c.current.length

/-- The link context of QUERY PANEL (R171). Whether the zone is disabled is judged from the profile and the zone present at the query, and
a head never identified disables none: DEDUCED, log 42. The three latched faults are sent in the order of R156's table, CHECK, TIMEOUT,
IDENTITY, where R171 gives none: DEDUCED, log 49. -/
def State.linkData (s : State) (p : Nat) : List Byte :=
  let l := s.link p
  u8 l.head.code ++ u8 l.missRun ++ u8 l.lostCount ++ idOrNone l.headRows ++ threeWay l.zonePresent ++ u8 l.generation
    ++ mark l.generationKnown ++ u8 (s.effectiveRows p) ++ mark (s.zoneDisabled p (l.zonePresent.getD true))
    ++ threeWay l.lastBlank ++ threeWay l.reportedBlank ++ mark l.checkFault ++ mark l.timeoutFault ++ mark l.identityFault

/-- The three latched faults cleared (R171). -/
def clearFaults (p : Nat) (s : State) : State :=
  s.modLink p fun l => { l with checkFault := false, timeoutFault := false, identityFault := false }

/-- QUERY PANEL carried out (R171). -/
def queryPanel (p : Nat) (s : State) : Answer × State :=
  if panelBad p then (refuse .malformed, s)
  else (done false (profileBytes p (s.panel p).profile ++ s.contextData p ++ s.linkData p), clearFaults p s)

/-- QUERY PANEL (R171). -/
def execQueryPanel (t : Txn) (panel : Byte) (s : State) : Host.Outcome State Fault Refusal :=
  .next (request t 3 9 allRoles (queryPanel panel.toNat) s)

end Sys2Proof.Machine
end

