-- ==== Sys2Proof/Machine/Resets.lean ====
section
/-! DEFINITION. Power-on reset, pin reset and the release of either (R15, R16, R190). -/

namespace Sys2Proof.Machine

/-- A port at a reset: its role sampled from its straps, its slot emptied, its transaction abandoned (R173, R183). A port whose
chip-select is asserted waits. -/
def PortState.resetTo (role : Role) (ps : PortState) : PortState :=
  { role
    slot := none
    chip := match ps.chip with
      | .released => .released
      | .asserted _ => .waiting
      | .waiting => .waiting }

/-- The ports at a reset (R183). -/
def resetPorts (straps : Straps) (ports : PerPort PortState) : PerPort PortState :=
  { a := ports.a.resetTo (Role.ofStraps straps.a)
    b := ports.b.resetTo (Role.ofStraps straps.b)
    c := ports.c.resetTo (Role.ofStraps straps.c) }

/-- What both resets empty or return to its default, the calendar and the core clock apart (R32, R58, R84, R99, R117, R135, R155,
R172, R183, R190). -/
def resetBlocks (kind : ResetKind) (straps : Straps) (s : State) : State :=
  { s with
    rstn := .asserted kind
    catalogue := Catalogue.atReset
    showings := []
    life := LifeSettings.atReset
    holds := []
    watch := Watch.atReset
    journal := Journal.empty
    figure := FigureSettings.atReset
    notices := NoticeUnit.empty
    carousels := List.replicate 8 Carousel.atReset
    plays := List.replicate 12 none
    panels := List.replicate 12 Panel.atReset
    links := List.replicate 12 LinkContext.atReset
    framePeriod := 500
    ports := resetPorts straps s.ports
    queues := { a := PortQueue.empty, b := PortQueue.empty, c := PortQueue.empty }
    outbox := []
    journalBox := [] }

/-- POWER_ON_RESET (R15). -/
def execPowerOnReset (straps : Straps) (s : State) : Host.Outcome State Fault Refusal :=
  .next { resetBlocks .powerOn straps s with cal := Calendar.atPowerOn, deferred := [], core := { now := 0, nextTick := none } }

/-- The calendar at a pin reset: the date, time, clock state, M and held mark are kept (R16). HUSH and D0 are set at the
release. -/
def Calendar.atPinReset (c : Calendar) : Calendar := { c with h0 := 6, openMin := 0, closeMin := 0, wake := false }

/-- PIN_RESET (R16). -/
def execPinReset (straps : Straps) (s : State) : Host.Outcome State Fault Refusal :=
  .next { resetBlocks .pin straps s with cal := s.cal.atPinReset, core := { s.core with nextTick := none } }

/-- The calendar at the release: D0 recomputed from M and H0 where the clock runs and M is not held (R5, R16), HUSH set from the
wall minute, off while the clock is UNSET (R11, R16). -/
def Calendar.atRelease (c : Calendar) : Calendar :=
  match c.clock with
  | .unset => { c with d0 := 0, hush := false }
  | .running => { c with d0 := if c.held then c.d0 else businessBase c.m c.h0, hush := c.closedAt c.wall }

/-- The detail of RESET (R190). -/
def resetDetail : ResetKind → Nat
  | .powerOn => 1
  | .pin => 2

/-- A record placed in every queue. -/
def pushAll (q : PerPort PortQueue) (r : EventRecord) : PerPort PortQueue := { a := q.a.push r, b := q.b.push r, c := q.c.push r }

/-- The release of RSTN: the calendar, the flash ticks from here, the hushed marks, the RESET record in every queue, then what was
kept for the release (R16, R113, R146, R190). -/
def releaseReset (kind : ResetKind) (s : State) : State :=
  let t := judgeHushAll
    { s with rstn := .released, cal := s.cal.atRelease, core := { s.core with nextTick := some (s.core.now + 100) } }
  { t with
    queues := s.deferred.foldl (offerAll t.ports) (pushAll t.queues (t.record .reset 0 (resetDetail kind)))
    deferred := [] }

/-- RESET_RELEASE (R190). With RSTN released already it changes nothing (log 7). -/
def execResetRelease (s : State) : Host.Outcome State Fault Refusal :=
  .next <|
    match s.rstn with
    | .released => s
    | .asserted kind => releaseReset kind s

end Sys2Proof.Machine
end

