-- ==== Sys2Proof/Machine/Transactions.lean ====
section
/-! DEFINITION. The transactions that hand no block a request: NOTHING, an empty transaction and a message that is none; and the
assertion of chip-select (R173 to R178). -/

namespace Sys2Proof.Machine

/-- NOTHING: the clock-out is judged, the sales watch hears it, and no reply is placed (R178). -/
def execNothing (t : Txn) (s : State) : Host.Outcome State Fault Refusal :=
  .next (transaction t.port (2 + t.surplus) (fun s => (none, s)) s)

/-- A transaction of no whole byte: R174 alone applies, and it is no sign of life (R175). -/
def execEmptyTransaction (p : Port) (s : State) : Host.Outcome State Fault Refusal :=
  .next (if s.takes p then s.modPort p (deselect ∘ clockOut 0) else s.modPort p deselect)

/-- The kind that a MALFORMED reply answers: the kind byte as received, 0 where fewer than two bytes were received (R179), whatever the
length byte says: DEDUCED, log 43. -/
def malformedKind : List Byte → Byte
  | _ :: k :: _ => k
  | [_] => 0#8
  | [] => 0#8

/-- Bytes that make no request: the reply is MALFORMED (R175, R176, R192). Bytes that spell a request, and no bytes, are no such
message, and the command changes nothing (log 25). -/
def execMalformedMessage (p : Port) (bytes : List Byte) (s : State) : Host.Outcome State Fault Refusal :=
  .next <|
    if bytes = [] ∨ (Wire.readRequest p bytes).isSome then s
    else transaction p bytes.length (fun s => (some { replyTo 0 (refuse .malformed) with kind := malformedKind bytes }, s)) s

/-- Chip-select of a port asserted: the transaction begins, its reply fixed (R173, R174). While RSTN is asserted the port waits for
a release (R183). -/
def assertSelect (rstn : ResetLine) (ps : PortState) : PortState :=
  match rstn, ps.chip with
  | .asserted _, _ => { ps with chip := .waiting }
  | .released, .released => { ps with chip := .asserted { reply := ps.slot, received := [], clockedOut := 0 } }
  | .released, .asserted _ => ps
  | .released, .waiting => ps

/-- CHIP_SELECT_ASSERTION (R173). -/
def execChipSelectAssertion (p : Port) (s : State) : Host.Outcome State Fault Refusal :=
  .next (s.modPort p (assertSelect s.rstn))

end Sys2Proof.Machine
end

