-- ==== Sys2Proof/Machine/Dispatch.lean ====
section
/-! DEFINITION. Which meaning each command has: one arm per constructor of Instr. -/

namespace Sys2Proof.Machine

def exec (i : Instr) (s : State) : Host.Outcome State Fault Refusal :=
  match i with
  | .powerOnReset straps => Sys2Proof.Machine.execPowerOnReset straps s
  | .pinReset straps => Sys2Proof.Machine.execPinReset straps s
  | .resetRelease => Sys2Proof.Machine.execResetRelease s
  | .secondEvent => Sys2Proof.Machine.execSecondEvent s
  | .dwellExpiry p => Sys2Proof.Machine.execDwellExpiry p s
  | .holdExpiry tag => Sys2Proof.Machine.execHoldExpiry tag s
  | .salesStale => Sys2Proof.Machine.execSalesStale s
  | .minuteEvent => Sys2Proof.Machine.execMinuteEvent s
  | .midnightEvent => Sys2Proof.Machine.execMidnightEvent s
  | .flashTick => Sys2Proof.Machine.execFlashTick s
  | .frameTime p => Sys2Proof.Machine.execFrameTime p s
  | .lostIdentify p => Sys2Proof.Machine.execLostIdentify p s
  | .replyWindowExpiry p => Sys2Proof.Machine.execReplyWindowExpiry p s
  | .headReport p bytes => Sys2Proof.Machine.execHeadReport p bytes s
  | .reportLengthFailure p length => Sys2Proof.Machine.execReportLengthFailure p length s
  | .zoneDeadline p => Sys2Proof.Machine.execZoneDeadline p s
  | .emptyTransaction port => Sys2Proof.Machine.execEmptyTransaction port s
  | .malformedMessage port bytes => Sys2Proof.Machine.execMalformedMessage port bytes s
  | .nothing t => Sys2Proof.Machine.execNothing t s
  | .readEvents t count => Sys2Proof.Machine.execReadEvents t count s
  | .setFilter t pairs => Sys2Proof.Machine.execSetFilter t pairs s
  | .queryBoard t => Sys2Proof.Machine.execQueryBoard t s
  | .queryShowing t id => Sys2Proof.Machine.execQueryShowing t id s
  | .queryHold t tag => Sys2Proof.Machine.execQueryHold t tag s
  | .queryNotice t id => Sys2Proof.Machine.execQueryNotice t id s
  | .queryCarousel t carousel start => Sys2Proof.Machine.execQueryCarousel t carousel start s
  | .queryPanel t panel => Sys2Proof.Machine.execQueryPanel t panel s
  | .setTime t f => Sys2Proof.Machine.execSetTime t f s
  | .wake t => Sys2Proof.Machine.execWake t s
  | .setBoard t f => Sys2Proof.Machine.execSetBoard t f s
  | .boardClear t => Sys2Proof.Machine.execBoardClear t s
  | .putAuditorium t auditorium name capacity => Sys2Proof.Machine.execPutAuditorium t auditorium name capacity s
  | .dropAuditorium t auditorium => Sys2Proof.Machine.execDropAuditorium t auditorium s
  | .suspendAuditorium t auditorium => Sys2Proof.Machine.execSuspendAuditorium t auditorium s
  | .resumeAuditorium t auditorium => Sys2Proof.Machine.execResumeAuditorium t auditorium s
  | .putFeature t feature title rating runtime => Sys2Proof.Machine.execPutFeature t feature title rating runtime s
  | .dropFeature t feature => Sys2Proof.Machine.execDropFeature t feature s
  | .putText t id bytes => Sys2Proof.Machine.execPutText t id bytes s
  | .dropText t id => Sys2Proof.Machine.execDropText t id s
  | .publish t f => Sys2Proof.Machine.execPublish t f s
  | .move t f => Sys2Proof.Machine.execMove t f s
  | .delay t id minutes => Sys2Proof.Machine.execDelay t id minutes s
  | .setCapacity t id capacity => Sys2Proof.Machine.execSetCapacity t id capacity s
  | .cancel t id => Sys2Proof.Machine.execCancel t id s
  | .sell t id count => Sys2Proof.Machine.execSell t id count s
  | .refund t id count => Sys2Proof.Machine.execRefund t id count s
  | .snapshot t id sold => Sys2Proof.Machine.execSnapshot t id sold s
  | .hold t tag id count lifetime => Sys2Proof.Machine.execHold t tag id count lifetime s
  | .confirm t tag count => Sys2Proof.Machine.execConfirm t tag count s
  | .release t tag => Sys2Proof.Machine.execRelease t tag s
  | .readJournal t start count => Sys2Proof.Machine.execReadJournal t start count s
  | .swapJournal t => Sys2Proof.Machine.execSwapJournal t s
  | .postNotice t f => Sys2Proof.Machine.execPostNotice t f s
  | .withdrawNotice t id => Sys2Proof.Machine.execWithdrawNotice t id s
  | .putEntry t f => Sys2Proof.Machine.execPutEntry t f s
  | .dropEntry t carousel position => Sys2Proof.Machine.execDropEntry t carousel position s
  | .setCarousel t f => Sys2Proof.Machine.execSetCarousel t f s
  | .setPanel t f => Sys2Proof.Machine.execSetPanel t f s
  | .chipSelectAssertion port => Sys2Proof.Machine.execChipSelectAssertion port s

end Sys2Proof.Machine
end

