-- ==== Sys2Proof/Machine/Step.lean ====
section
/-! DEFINITION. One step of the block: the command at the front of the queue, or an idle millisecond. -/

namespace Sys2Proof.Machine

/-- The block with nothing to do: the core clock counts one millisecond. DESIGN CHOICE, log 2. -/
def idle (s : State) : State := { s with core := { s.core with now := s.core.now + 1 } }

/-- One step: the command at the front of the queue leaves it and is carried out; with none waiting the block idles. -/
def step (s : State) : Host.Outcome State Fault Refusal :=
  match s.pending with
  | [] => .next (idle s)
  | c :: rest => exec c { s with pending := rest }

/-- The state with the command that a word spells put at the front of its queue; as it is where the word spells none. Log 28. -/
def State.withFetchWord (s : State) (nbits w : Nat) : State :=
  match decodeTableWord nbits w with
  | some c => { s with pending := c :: s.pending }
  | none => s

end Sys2Proof.Machine
end

