-- ==== Sys2Proof/Safety.lean ====
section
/-! DEFINITION. The terms of the statements: what a taken transaction comes to, and the invariants of the block. -/

namespace Sys2Proof.Machine

/-! ### Between arrivals -/

/-- No arrival is in progress: nothing raised waits to join the queues or the journal (R79, R184). -/
abbrev State.Settled (s : State) : Prop := s.outbox = [] ∧ s.journalBox = []

/-- A port takes the transaction, its role is one of a list, and no arrival is in progress. -/
abbrev Taken (t : Txn) (roles : List Role) (s : State) : Prop :=
  s.takes t.port = true ∧ (s.port t.port).role ∈ roles ∧ s.Settled

/-- The state once a message of some length has been received: the clock-out judged (R174), the sales watch told (R77, R176). -/
def heard (t : Txn) (length : Nat) (s : State) : State := signOfLife t.port (s.modPort t.port (clockOut (length + t.surplus)))

/-- A reply placed in the slot, and chip-select released (R177). -/
def replied (t : Txn) (kind : Nat) (a : Answer) (s : State) : State := s.modPort t.port (deselect ∘ placeReply (replyTo kind a))

/-- The roles that may issue the request of a kind code (the table of R176). -/
def rolesOf (kind : Nat) : List Role :=
  if kind ∈ [10, 12, 16, 17, 20, 21, 32, 33, 35, 80, 81, 82, 96] then [.schedule, .service]
  else if kind ∈ [18, 19, 22, 23, 34, 36] then [.schedule, .desk, .service]
  else if kind ∈ [11, 54, 55, 64, 65] then [.desk, .service]
  else if kind ∈ [48, 49, 50, 51, 52, 53] then [.sales, .service]
  else if kind = 13 then [.service]
  else if kind ∈ [1, 2, 3, 4, 5, 6, 7, 8, 9] then [.schedule, .sales, .desk, .service]
  else []

/-! ### Shapes and ranges -/

/-- Keys strictly rising: no two live records share one. -/
abbrev Rising (l : List Nat) : Prop := l.Pairwise (· < ·)

/-- A port at rest: a transaction in progress has received and clocked out no whole byte (log 4). -/
abbrev PortState.Fresh (ps : PortState) : Prop := ps.transfer.clockedOut = 0 ∧ ps.transfer.received = []

/-- A queue's bound (R188) and a filter's (R187). -/
abbrev PortQueue.Bounded (q : PortQueue) : Prop := q.records.length ≤ 64 ∧ q.filter.length ≤ 5

/-- The sizes of the tables, and the bounds of what grows (R34, R67, R79, R100, R118, R187, R188). -/
structure State.Shape (s : State) : Prop where
  settled : s.Settled
  auditoriums : s.catalogue.auditoriums.length = 24
  features : s.catalogue.features.length = 128
  texts : s.catalogue.texts.length = 384
  carousels : s.carousels.length = 8
  plays : s.plays.length = 12
  panels : s.panels.length = 12
  links : s.links.length = 12
  takeover : s.notices.takeover.length = 12
  showings : s.showings.length ≤ 192
  holds : s.holds.length ≤ 96
  filling : s.journal.filling.length ≤ 128
  closed : s.journal.closed.length ≤ 128
  notices : s.notices.table.length ≤ 32
  rings : ∀ c ∈ s.carousels, c.ring.length ≤ 32
  queueA : s.queues.a.Bounded
  queueB : s.queues.b.Bounded
  queueC : s.queues.c.Bounded
  freshA : s.ports.a.Fresh
  freshB : s.ports.b.Fresh
  freshC : s.ports.c.Fresh

/-- The calendar is a real instant, and M lies within its range (R1, R4); M is 0 while the clock is UNSET (R15, R16). -/
structure State.Dated (s : State) : Prop where
  year : 2000 ≤ s.cal.year ∧ s.cal.year ≤ 2099
  month : 1 ≤ s.cal.month ∧ s.cal.month ≤ 12
  day : 1 ≤ s.cal.day ∧ s.cal.day ≤ monthLength s.cal.year s.cal.month
  hour : s.cal.hour ≤ 23
  minute : s.cal.minute ≤ 59
  second : s.cal.second ≤ 59
  limit : s.cal.m ≤ 1048575
  unset : s.cal.clock = .unset → s.cal.m = 0

/-- Every board setting lies in the range of the SET BOARD table, and F1 lies below F2 (R13, R46, R77, R85, R157). -/
structure State.Ranged (s : State) : Prop where
  h0 : s.cal.h0 ≤ 23
  hours : s.cal.openMin ≤ 1439 ∧ s.cal.closeMin ≤ 1439
  lead : s.life.lead ≤ 60
  late : s.life.late ≤ 30
  linger : 1 ≤ s.life.linger ∧ s.life.linger ≤ 60
  f1 : 1 ≤ s.figure.f1 ∧ s.figure.f1 ≤ 998
  f2 : s.figure.f1 < s.figure.f2 ∧ s.figure.f2 ≤ 999
  w : s.figure.w ≤ 100
  k : s.figure.k ≤ 50
  dc : 9 ≤ s.figure.dc ∧ s.figure.dc ≤ 999
  watch : 5 ≤ s.watch.period ∧ s.watch.period ≤ 300
  frame : 200 ≤ s.framePeriod ∧ s.framePeriod ≤ 1000 ∧ s.framePeriod % 50 = 0

/-- A profile in the ranges of R138. -/
structure Profile.InRange (f : Profile) : Prop where
  carousel : f.carousel ≤ 8
  features : f.featureA ≤ 128 ∧ f.featureB ≤ 128
  named : f.layout = .feature → f.featureA ≠ 0 ∨ f.featureB ≠ 0
  rows : 1 ≤ f.rows ∧ f.rows ≤ 16
  pageDwell : 3 ≤ f.pageDwell ∧ f.pageDwell ≤ 60
  noticeDwell : 3 ≤ f.noticeDwell ∧ f.noticeDwell ≤ 30

/-- Every panel's profile lies in its ranges. -/
def State.Profiled (s : State) : Prop := ∀ c ∈ s.panels, c.profile.InRange

/-! ### Seats -/

/-- The counts of the live holds that name a showing, summed (R59). -/
def State.heldBy (s : State) (id : Nat) : Nat := holdSum (s.holds.filter fun h => h.showing == id)

/-- H is the sum of the counts of the live holds naming the showing (R59), and every live hold names a live showing in a state in
which HOLD is taken (R67, R68, R74). -/
structure State.Seated (s : State) : Prop where
  showings : Rising (s.showings.map Showing.id)
  holds : Rising (s.holds.map Hold.tag)
  sums : ∀ x ∈ s.showings, x.held = s.heldBy x.id
  named : ∀ h ∈ s.holds, ∃ x ∈ s.showings, x.id = h.showing ∧ x.state.holds = true

/-! ### Showings -/

/-- The state in which a record comes to rest when it is judged at m: the rows of R38's table in turn, the freeing apart. -/
def Showing.restAt (life : LifeSettings) (m : Nat) (x : Showing) : ShowState :=
  let e := x.start + x.delay
  let a := if x.state = .planned ∧ (x.salesOpen.elim true fun o => decide (o ≤ m)) = true then .onSale else x.state
  let b := if a = .onSale ∧ e ≤ m + life.lead then .seating else a
  let c := if b = .seating ∧ e ≤ m then .started else b
  let d := if c = .started ∧ e + life.late ≤ m then .closed else c
  if d = .closed ∧ e + x.runtime ≤ m then .ended else d

/-- The purge deadline with which a judged record stands: set at ENDED (R43), kept otherwise. -/
def Showing.purgeAtRest (life : LifeSettings) (m : Nat) (x : Showing) : Option Nat :=
  if x.state ≠ .ended ∧ x.restAt life m = .ended then some (min 1048575 (x.start + x.delay + x.runtime + life.linger)) else x.purge

/-- A record that is judged at m is freed: it stands in ENDED or CANCELLED with its purge deadline reached (R44). -/
def Showing.FreedAt (life : LifeSettings) (m : Nat) (x : Showing) : Prop :=
  (x.restAt life m = .ended ∨ x.restAt life m = .cancelled) ∧ ∃ d, x.purgeAtRest life m = some d ∧ d ≤ m

/-- A record that is judged at m takes the transition into CLOSED (R42). -/
def Showing.ClosesAt (life : LifeSettings) (m : Nat) (x : Showing) : Prop :=
  (x.state = .planned ∨ x.state = .onSale ∨ x.state = .seating ∨ x.state = .started) ∧
    (x.restAt life m = .closed ∨ x.restAt life m = .ended)

/-- What being judged at m makes of a record x that is not freed: y stands at rest in its state, CLOSED takes its holds, and the seat
figures move at CLOSED alone (R38, R42, R43). Pace, tally and fast flag are left to the arrival; the seats too, where a hold of x ends
at the same arrival for another reason (quiet false). -/
structure Showing.JudgedTo (life : LifeSettings) (m : Nat) (quiet : Prop) (x y : Showing) : Prop where
  record : y = { x with
    state := x.restAt life m, purge := x.purgeAtRest life m, held := y.held, tally := y.tally, pace := y.pace, band := y.band,
    fast := y.fast, oversold := y.oversold }
  rest : y.due life m = none
  closed : quiet → x.ClosesAt life m → y.held = 0
  held : quiet → ¬ x.ClosesAt life m → y.held = x.held

/-- What a minute event at m makes of a record x that is not freed: it is judged, its pace takes one update in the pace states and is 0
after CLOSED, its tally is zeroed, and its fast flag is recomputed (R39, R74, R90, R93). Of a PLANNED record that goes on sale the
pace is not stated: R91 takes its tally to be 0. -/
structure Showing.MinuteTo (life : LifeSettings) (m : Nat) (quiet : Prop) (x y : Showing) : Prop where
  judged : x.JudgedTo life m quiet y
  tally : y.tally = 0
  fast : y.fast = y.nextFast m
  updated : x.state ≠ .planned → (y.state = .onSale ∨ y.state = .seating ∨ y.state = .started) →
    y.pace = x.pace - x.pace / 8 + 2 * x.tally
  stopped : x.ClosesAt life m → y.pace = 0
  kept : x.state = y.state → (x.state = .planned ∨ x.state = .closed ∨ x.state = .ended ∨ x.state = .cancelled) → y.pace = x.pace
  band : quiet → ¬ x.ClosesAt life m → y.band = x.band ∧ y.oversold = x.oversold

/-- A minute event at m taken by the Showing Table and the Seat Accounting Unit, from the showings of s to those of t. -/
structure State.MinuteTaken (m : Nat) (quiet : Showing → Prop) (s t : State) : Prop where
  freed : ∀ x ∈ s.showings, x.FreedAt s.life m → t.showing? x.id = none
  live : ∀ x ∈ s.showings, ¬ x.FreedAt s.life m → ∃ y, t.showing? x.id = some y ∧ x.MinuteTo s.life m (quiet x) y
  old : ∀ y ∈ t.showings, ∃ x ∈ s.showings, x.id = y.id

/-! ### Notices -/

/-- The activation list holds each ACTIVE notice once and no PENDING one (R101), and every takeover entry names the newest ACTIVE
ALERT in scope (R114). -/
structure State.Noticed (s : State) : Prop where
  table : Rising (s.notices.table.map Notice.id)
  once : s.notices.activation.Nodup
  active : ∀ i, i ∈ s.notices.activation ↔ ∃ n ∈ s.notices.table, n.id = i ∧ n.state = .active
  takeover : ∀ p ∈ panelNumbers, s.takeover p = s.takeoverDue p

/-! ### Zones -/

/-- A zone that is not IDLE. -/
def Zone.busy : Zone → Bool
  | .idle => false
  | .cued _ _ => true
  | .playing _ _ => true

/-- What the trailer zone of a panel may be: busy exactly while a play record is present (R120), and only under a head that is
present, neither hushed nor under takeover (R146, R154); and no text is marked current without a head (R154). -/
structure State.ZoneFits (s : State) (p : Nat) : Prop where
  play : (s.panel p).zone.busy = (s.play? p).isSome
  head : (s.panel p).zone.busy = true → (s.link p).head.present = true
  lit : (s.panel p).zone.busy = true → (s.panel p).hushed = false
  free : (s.panel p).zone.busy = true → s.takeover p = none
  texts : (s.link p).head.present = false → (s.panel p).current = []

/-- Every panel's zone fits. -/
def State.Zoned (s : State) : Prop := ∀ p ∈ panelNumbers, s.ZoneFits p

/-- A panel with a play is a member of the play's carousel: losing membership ends the play (R128, R131). -/
def State.PlaysFit (s : State) : Prop := ∀ p r, s.play? p = some r → s.member r.carousel p = true

/-! ### What a composition carries -/

/-- The row entry of a showing (R142): its fields as the record stands, the texts with their revisions in the store, and the stale mark
in place of the displayed count, the more mark and the fast flag while the sales state is STALE (R94, R97). -/
structure State.RowEntry (s : State) (layout : Layout) (x : Showing) (y : Row) : Prop where
  showing : y.id = x.id ∧ y.wallStart = x.start % 1440 ∧ y.delay = x.delay
  codes : y.format = x.format ∧ y.state = x.state ∧ y.band = x.band
  auditorium : y.auditorium = x.auditorium
  name : y.nameText = (s.auditorium x.auditorium).name ∧ y.nameRevision = (s.text y.nameText).revision
  feature : ∀ f, s.feature? x.feature = some f → y.titleText = f.title ∧ y.rating = f.rating
  title : y.titleRevision = (s.text y.titleText).revision
  current : s.watch.sales = .current → y.stale = false ∧ y.displayed = min x.left s.figure.dc ∧
    (y.more = true ↔ s.figure.dc < x.left) ∧ y.fast = x.fast
  stale : s.watch.sales = .stale → y.stale = true ∧ y.displayed = 0 ∧ y.more = false ∧ y.fast = false
  suspended : y.suspended = true ↔ (s.auditorium x.auditorium).state = .suspended
  oversold : y.oversold = true ↔ layout = .desk ∧ x.oversold = true

/-- The entry of a notice in a frame (R144, R145): its id, class and content, a text's revision in the store, and whether it is ON: below
its on-hold, or without flash (R113). -/
structure State.NoticeEntry (s : State) (n : Notice) (e : NoticePart) : Prop where
  notice : e.id = n.id ∧ e.cls = n.cls ∧ e.content = n.content
  revision : ∀ i, n.content = .text i → e.revision = (s.text i).revision
  on : e.on = true ↔ ∀ a b k, n.flash = some (a, b) → n.position = some k → k < a

/-- A panel's strip: the notices of the activation list in its order, DESK before SHOWING before INFO, whose scope contains the panel or
is empty (R101, R144). -/
def State.stripOf (s : State) (p : Nat) : List Notice :=
  [NoticeClass.desk, .showing, .info].flatMap fun c => (s.notices.activation.filterMap s.notice?).filter fun n =>
    decide (n.cls = c ∧ (n.scope = 0 ∨ n.scope.getLsbD (p - 1) = true))

/-- Which of the three groups of R152 a text belongs to: the frame's own, the other rows', the rest. -/
def textGroup (own others : List Nat) (i : Nat) : Nat := if i ∈ own then 1 else if i ∈ others then 2 else 3

/-- A text is taken before another: by group, then by id (R152). -/
abbrev TextBefore (own others : List Nat) (i j : Nat) : Prop :=
  textGroup own others i < textGroup own others j ∨ textGroup own others i = textGroup own others j ∧ i < j

/-- The texts chosen from three groups (R152): the first two, fewer where there are fewer, of those not marked current. -/
structure ChosenTexts (marked own others rest l : List Nat) : Prop where
  few : l.length ≤ 2
  wanted : ∀ i ∈ l, i ∉ marked ∧ (i ∈ own ∨ i ∈ others ∨ i ∈ rest)
  ordered : l.Pairwise (TextBefore own others)
  first : ∀ i, i ∉ marked → (i ∈ own ∨ i ∈ others ∨ i ∈ rest) → i ∉ l → l.length = 2 ∧ ∀ j ∈ l, TextBefore own others j i

/-- The text blocks of a frame: the texts chosen from three groups, each with its revision and bytes in the store (R152). -/
def State.TextBlocks (s : State) (marked own others rest : List Nat) (blocks : List TextBlock) : Prop :=
  ∃ l, ChosenTexts marked own others rest l ∧
    blocks = l.map fun i => { id := i, revision := (s.text i).revision, bytes := (s.text i).bytes }

/-- The texts that showings reference in their rows: the auditoriums' names and the features' titles (R152). -/
def State.textsOfRows (s : State) (l : List Showing) : List Nat :=
  l.map (fun x => (s.auditorium x.auditorium).name) ++ l.filterMap fun x => (s.feature? x.feature).map Feature.title

/-- The texts that notices have as their content (R152). -/
def textsOfNotices (l : List Notice) : List Nat :=
  l.filterMap fun n => match n.content with
    | .text i => some i
    | .system _ _ => none

/-- The body of a frame in normal form, under a panel context c whose indexes are up to date and r effective rows: the rows of the
current page (R142, R143), the strip's notice at the notice index (R144) and the text blocks of R152. -/
structure State.NormalForm (s : State) (p : Nat) (c : Panel) (r : Nat) (b : PageBody) : Prop where
  rows : List.Forall₂ (s.RowEntry c.profile.layout) (((s.rowList p).drop (c.pageIndex * r)).take r) b.rows
  noShowings : b.noShowings = true ↔ s.rowList p = [] ∧ c.profile.layout ≠ .notice
  notice : ∀ n, (s.stripOf p)[c.noticeIndex]? = some n → ∃ e, b.notice = some e ∧ s.NoticeEntry n e
  noNotice : (s.stripOf p)[c.noticeIndex]? = none → b.notice = none
  texts : s.TextBlocks c.current
    (s.textsOfRows (((s.rowList p).drop (c.pageIndex * r)).take r) ++ textsOfNotices (s.stripOf p)[c.noticeIndex]?.toList)
    (s.textsOfRows ((s.rowList p).take (c.pageIndex * r) ++ (s.rowList p).drop (c.pageIndex * r + r)))
    (textsOfNotices ((s.stripOf p).eraseIdx c.noticeIndex)) b.texts

/-- The body of a frame in takeover form (R145): the notice n, no rows and no strip notice; the texts of the row list and of the strip
count as those of other pages and other notices (R152, log 20). -/
structure State.TakeoverForm (s : State) (p : Nat) (c : Panel) (n : Notice) (b : PageBody) : Prop where
  rows : b.rows = [] ∧ b.noShowings = false
  notice : ∃ e, b.notice = some e ∧ s.NoticeEntry n e
  texts : s.TextBlocks c.current (textsOfNotices [n]) (s.textsOfRows (s.rowList p)) (textsOfNotices (s.stripOf p)) b.texts

/-- An index and its dwell count after a composition (R143, R144): a count of 0 advances the index and restarts the dwell; an index at
or above the number of places becomes 0. -/
structure Turned (index count dwell places : Nat) (index' count' : Nat) : Prop where
  expired : count = 0 → count' = dwell ∧ index' = if index + 1 < places then index + 1 else 0
  runs : count ≠ 0 → count' = count ∧ index' = if index < places then index else 0

/-! ### What a seat change comes to -/

/-- A showing's record replaced after a change of its counts: OVERSOLD where the excess grew, then BAND where the band changed, and
one journal entry (R60, R61, R79, R89). -/
def recounted (kind : JournalKind) (count : Nat) (x y : Showing) (s : State) : State :=
  { s with
    showings := modKey Showing.id x.id (fun _ => y) s.showings
    outbox := s.outbox
      ++ (if x.excess < y.excess then [(Source.seats x.id, s.record .oversold x.id y.excess)] else [])
      ++ (if y.band ≠ x.band then [(Source.seats x.id, s.record .band x.id y.band.code)] else [])
    journalBox := s.journalBox ++
      [(Source.seats x.id,
        { kind, showing := x.id, count, sold := y.sold, held := y.held, m := s.cal.m, second := s.cal.second })] }

end Sys2Proof.Machine
end

