-- ==== Sys2Proof/WellFormed.lean ====
section
/-! DEFINITION. Which terms of Instr stand for something a gateway, a head or a clock can send. Every other value of an
operand is admitted: what a rule clamps or refuses is no matter of form. -/

namespace Sys2Proof

/-- The bytes of a head report up to its completion: anything before the first start mark, the start mark, a length of 6 to
15, that many bytes and the two CRC bytes (R194). -/
def completeReport : List Byte → Bool
  | [] => false
  | b :: r =>
    if b = 0xA5#8 then
      match r with
      | h :: l :: rest => decide (6 ≤ (Wire.half h l).toNat ∧ (Wire.half h l).toNat ≤ 15 ∧ rest.length = (Wire.half h l).toNat + 2)
      | _ => false
    else completeReport r

/-- The form check of a command. -/
def Instr.wellFormed : Instr → Bool
  | .malformedMessage p b => decide (b ≠ [] ∧ Wire.readRequest p b = none)
  | .headReport _ b => completeReport b
  | .reportLengthFailure _ n => decide (n.toNat < 6 ∨ 15 < n.toNat)
  | .setFilter _ l => decide (l.length ≤ 84)
  | .putText _ _ b => decide (b.length ≤ 250)
  | .powerOnReset _ | .pinReset _ | .resetRelease | .secondEvent | .dwellExpiry _ | .salesStale | .minuteEvent
  | .midnightEvent | .flashTick | .frameTime _ | .lostIdentify _ | .replyWindowExpiry _ | .zoneDeadline _
  | .emptyTransaction _ | .nothing _ | .readEvents _ _ | .queryBoard _ | .queryShowing _ _ | .queryHold _ _ | .queryNotice _ _
  | .queryCarousel _ _ _ | .queryPanel _ _ | .setTime _ _ | .wake _ | .setBoard _ _ | .boardClear _ | .putAuditorium _ _ _ _
  | .dropAuditorium _ _ | .suspendAuditorium _ _ | .resumeAuditorium _ _ | .putFeature _ _ _ _ _ | .dropFeature _ _
  | .dropText _ _ | .publish _ _ | .move _ _ | .delay _ _ _ | .setCapacity _ _ _ | .cancel _ _ | .sell _ _ _ | .refund _ _ _
  | .snapshot _ _ _ | .hold _ _ _ _ _ | .confirm _ _ _ | .release _ _ | .readJournal _ _ _ | .swapJournal _ | .postNotice _ _
  | .withdrawNotice _ _ | .putEntry _ _ | .dropEntry _ _ _ | .setCarousel _ _ | .setPanel _ _ | .chipSelectAssertion _ => true
  | .holdExpiry tag => decide (tag ≠ 0#16)

end Sys2Proof
end

