-- ==== Sys2Proof/Certificates/Slice0/Obligations.lean ====
section
/-! DEFINITION. The statements about the block. A statement about a request names the state the request is taken in by heard (the
clock-out judged, the sales watch told) and its reply by replied; both are in Safety.lean. A frame is written as an equation: the
new state is the old one with the named fields taken from the new one. The field choice counts the model's free choices of an order
(log 9), and says nothing of the board. -/

open Sys2Proof Sys2Proof.Machine

/-! ### Steps -/

/-- Step takes the command at the front of the queue and runs exec on it with the queue's rest. With no command waiting the block
idles: the core clock counts one millisecond, and nothing else changes (the model's own choice: log 2). -/
def Obligations.StepRunsFrontCommand : Prop :=
  (∀ (c : Instr) (rest : List Instr) (s : State), s.pending = c :: rest → step s = exec c { s with pending := rest }) ∧
  (∀ s : State, s.pending = [] → step s = .next { s with core := { s.core with now := s.core.now + 1 } })

/-- No command stops the block, none touches the queue of waiting commands, and a port's role is changed by the resets alone
(R173). -/
def Obligations.EveryCommandCompletesAndLeavesTheQueue : Prop :=
  ∀ (c : Instr) (s : State), ∃ t, exec c s = .next t ∧ t.pending = s.pending ∧
    ((∀ straps, c ≠ .powerOnReset straps ∧ c ≠ .pinReset straps) → ∀ p : Port, (t.port p).role = (s.port p).role)

/-! ### Transactions and replies (spec/10) -/

/-- A port that takes no transaction (R183) only releases its chip-select, whatever the request. A request from a port whose role
is not in the table of R176 is answered ROLE, under its own kind, and changes nothing but the port, the sales watch and what the
watch raises (R176, R177). That a request command is a whole transaction is the model's choice: log 3. -/
def Obligations.UntakenAndForeignRequestsDoNothing : Prop :=
  (∀ (i : Instr) (t : Txn) (kind : Nat) (b : List Byte) (s : State), Wire.fieldsOf i = some (t, kind, b) →
     s.takes t.port = false → exec i s = .next (s.modPort t.port deselect)) ∧
  (∀ (i : Instr) (t : Txn) (kind : Nat) (b : List Byte) (s : State), Wire.fieldsOf i = some (t, kind, b) →
     s.takes t.port = true → s.Settled → (s.port t.port).role ∉ rolesOf kind →
     exec i s = .next (replied t kind (refuse .role) (heard t (b.length + 2) s)))

/-- Every request but NOTHING gets exactly one reply, of its own kind; a refused one carries no data and leaves the state as the
message found it (R177, R179). -/
def Obligations.RefusedRequestsChangeNothing : Prop :=
  ∀ (i : Instr) (t : Txn) (kind : Nat) (b : List Byte) (s : State), Wire.fieldsOf i = some (t, kind, b) → kind ≠ 1 →
    s.takes t.port = true → s.Settled →
    ∃ (a : Answer) (u : State), exec i s = .next (replied t kind a u) ∧
      (a.result ≠ .done → a.data = [] ∧ a.clamped = false ∧ u = heard t (b.length + 2) s)

/-- NOTHING judges the clock-out, tells the sales watch and places no reply; bytes that make no request are answered MALFORMED
with the kind byte as received; an empty transaction places no reply and is no sign of life (R174, R175, R178, R179). What a whole
transaction is, which bytes make the malformed message, and that the kind byte received is echoed under a length byte of 0 or 1
too, are the model's: logs 3, 4, 25 and 43. -/
def Obligations.TransactionsWithoutARequest : Prop :=
  (∀ (t : Txn) (s : State), s.takes t.port = true → s.Settled →
    exec (.nothing t) s = .next ((heard t 2 s).modPort t.port deselect)) ∧
  (∀ (p : Port) (bytes : List Byte) (s : State), s.takes p = true → s.Settled →
    (Instr.malformedMessage p bytes).wellFormed = true →
    exec (.malformedMessage p bytes) s = .next
      ((heard { port := p, surplus := 0 } bytes.length s).modPort p (deselect ∘ placeReply
        { kind := bytes.getD 1 0, result := .malformed, clamped := false, earlierLost := false, data := [] }))) ∧
  (∀ (p : Port) (s : State), s.takes p = true → (s.port p).Fresh →
    exec (.emptyTransaction p) s = .next (s.modPort p deselect))

/-- A reply clocked out whole leaves the slot, one clocked out in part stays, and a new reply over an uncollected one carries
EARLIER LOST (R174, R177). Chip-select asserted fixes the reply to clock out, and the release judges that reply by the bytes
clocked since; a port still selected since a reset goes on waiting, and while RSTN is asserted a port comes to wait (R173, R174,
R183). That the release of a port whose assertion was no command stands for the whole transaction is the model's choice: log 3. -/
def Obligations.ReplySlotFollowsTheClockOut : Prop :=
  (∀ (ps : PortState) (r q : Reply) (n : Nat), ps.chip = .released →
     ((clockOut n { ps with slot := none }).slot = none) ∧
     (4 + r.data.length ≤ n → (clockOut n { ps with slot := some r }).slot = none) ∧
     (n < 4 + r.data.length → clockOut n { ps with slot := some r } = { ps with slot := some r }) ∧
     (placeReply q { ps with slot := none }).slot = some { q with earlierLost := false } ∧
     (placeReply q { ps with slot := some r }).slot = some { q with earlierLost := true }) ∧
  (∀ (ps : PortState) (tr : Transfer) (n : Nat), ps.chip = .asserted tr →
     (tr.reply = none → clockOut n ps = ps) ∧
     (∀ r, tr.reply = some r →
       (4 + r.data.length ≤ tr.clockedOut + n → clockOut n ps = { ps with slot := none }) ∧
       (tr.clockedOut + n < 4 + r.data.length → clockOut n ps = ps))) ∧
  (∀ (p : Port) (s : State),
     (s.rstn = .released → (s.port p).chip = .released →
       exec (.chipSelectAssertion p) s = .next (s.modPort p fun ps =>
         { ps with chip := .asserted { reply := (s.port p).slot, received := [], clockedOut := 0 } })) ∧
     (s.rstn = .released → (s.port p).chip ≠ .released → exec (.chipSelectAssertion p) s = .next s) ∧
     (∀ k, s.rstn = .asserted k →
       exec (.chipSelectAssertion p) s = .next (s.modPort p fun ps => { ps with chip := .waiting })))

/-- A message of a SALES port restarts the watch, and in STALE makes the board CURRENT and raises SALES RESUMED with the port as
detail; a message of another port leaves everything as it was. The second event at which the watch runs out makes the board STALE
and raises SALES STALE with the watch period (R77). That SALES_STALE is the whole second event, its tag with the advanced second,
and that SALES RESUMED joins the queues before the records of the request, are the model's: logs 1, 47 and 11. -/
def Obligations.SalesWatchHearsAndRunsOut : Prop :=
  (∀ (p : Port) (s : State), s.Settled →
     ((s.port p).role ≠ .sales → signOfLife p s = s) ∧
     ((s.port p).role = .sales → s.watch.sales = .current →
       signOfLife p s = { s with watch := { s.watch with count := s.watch.period } }) ∧
     ((s.port p).role = .sales → s.watch.sales = .stale →
       signOfLife p s = { s with
         watch := { sales := .current, count := s.watch.period, period := s.watch.period }
         queues := offerAll s.ports s.queues
           { kind := .salesResumed, m := s.cal.m, second := s.cal.second, subject := .board, number := 0, detail := portCode p }
         choice := s.choice + 1 })) ∧
  (∀ (s : State), s.rstn = .released → s.Settled → s.cal.second < 59 → (∀ h ∈ s.holds, 2 ≤ h.remaining) →
     s.watch.sales = .current → s.watch.count = 1 →
     exec .salesStale s = .next { s with
       cal := { s.cal with second := s.cal.second + 1 }
       holds := s.holds.map fun h => { h with remaining := h.remaining - 1 }
       watch := { sales := .stale, count := 0, period := s.watch.period }
       panels := s.panels.map fun c =>
         if c.profile.enabled then { c with pageCount := c.pageCount - 1, noticeCount := c.noticeCount - 1 } else c
       queues := offerAll s.ports s.queues
         { kind := .salesStale, m := s.cal.m, second := s.cal.second + 1, subject := .board, number := 0,
           detail := s.watch.period }
       choice := s.choice + 1 })

/-! ### Events (spec/11) -/

/-- READ EVENTS takes up to 12 of the oldest records off the sending port's queue and clears its OVERRUN mark (R189). SET FILTER
of at most 5 pairs of kinds 0 to 19 replaces the sending port's list, and any other is refused MALFORMED (R187). Neither changes
anything else. A record joins the queue of each port whose filter accepts it: by a pair of a written list, or by the role's
default set while no pair is written; RESET and BOARD CLEARED join every queue (R186). -/
def Obligations.EventRequestsServeTheQueue : Prop :=
  (∀ (t : Txn) (count : Byte) (s : State), Taken t [.schedule, .sales, .desk, .service] s →
     let u := heard t 3 s
     let q := u.queue t.port
     let n := min 12 count.toNat
     exec (.readEvents t count) s = .next (replied t 2
       (done (decide (12 < count.toNat))
         (mark q.overrun ++ u8 (min n q.records.length) ++ u8 (q.records.length - n)
           ++ (q.records.take n).flatMap EventRecord.bytes))
       (u.modQueue t.port fun q => { q with records := q.records.drop n, overrun := false }))) ∧
  (∀ (t : Txn) (l : List (Byte × Half)) (s : State), Taken t [.schedule, .sales, .desk, .service] s →
     l.length ≤ 5 → (∀ x ∈ l, x.1.toNat ≤ 19) →
     exec (.setFilter t l) s = .next (replied t 3
       (done false (u8 l.length ++ l.flatMap fun x => u8 x.1.toNat ++ u16 x.2.toNat))
       ((heard t (3 + 3 * l.length) s).modQueue t.port fun q =>
         { q with filter := l.map fun x => { kind := x.1.toNat, number := x.2.toNat } }))) ∧
  (∀ (t : Txn) (l : List (Byte × Half)) (s : State), Taken t [.schedule, .sales, .desk, .service] s →
     (5 < l.length ∨ ∃ x ∈ l, 19 < x.1.toNat) →
     exec (.setFilter t l) s = .next (replied t 3 (refuse .malformed) (heard t (3 + 3 * l.length) s))) ∧
  (∀ (role : Role) (filter : List FilterPair) (r : EventRecord),
     (r.kind = .reset ∨ r.kind = .boardCleared → accepts role filter r = true) ∧
     (r.kind ≠ .reset → r.kind ≠ .boardCleared →
       (filter ≠ [] → (accepts role filter r = true ↔
         ∃ f ∈ filter, (f.kind = 0 ∨ f.kind = r.kind.code) ∧ (f.number = 0 ∨ f.number = r.number))) ∧
       (filter = [] → (accepts role filter r = true ↔
         role = .desk ∨ role = .service ∨
         (role = .sales ∧ r.kind ∈ [.showingState, .band, .oversold, .holdEnded, .salesStale, .salesResumed]) ∨
         (role = .schedule ∧ r.kind ∈ [.showingState, .showingFreed, .panelState, .layoutClamped, .clipFault, .clipTimeout,
           .carouselDry, .dayStart, .clockLimit]))))) ∧
  (∀ (ports : PerPort PortState) (q : PerPort PortQueue) (r : EventRecord) (p : Port),
     (offerAll ports q r).get p = if accepts (ports.get p).role (q.get p).filter r then (q.get p).push r else q.get p)

/-- A record joins the end of a queue; a queue of 64 loses its oldest and is marked OVERRUN; and no queue grows past 64 (R188). An
entry joins the FILLING bank up to 128; each further one is dropped and counted up to 65535, and the first drop since the bank was
last empty raises JOURNAL FULL (R79, R81). -/
def Obligations.FullQueueAndJournalDrop : Prop :=
  (∀ (q : PortQueue) (r : EventRecord),
     (q.records.length < 64 → q.push r = { q with records := q.records ++ [r] }) ∧
     (∀ x l, q.records = x :: l → 64 ≤ q.records.length → q.push r = { q with records := l ++ [r], overrun := true }) ∧
     (q.records.length ≤ 64 → (q.push r).records.length ≤ 64)) ∧
  (∀ (g : Source) (e : JournalEntry) (s : State), s.Settled →
     (s.journal.filling.length < 128 →
       settle (journalize g e s) = { s with
         journal := { s.journal with filling := s.journal.filling ++ [e] }
         choice := s.choice + 1 }) ∧
     (128 ≤ s.journal.filling.length →
       settle (journalize g e s) = { s with
         journal := { s.journal with dropped := min 65535 (s.journal.dropped + 1) }
         queues :=
           if s.journal.dropped = 0 then offerAll s.ports s.queues
             { kind := .journalFull, m := s.cal.m, second := s.cal.second, subject := .board, number := 0, detail := 0 }
           else s.queues
         choice := s.choice + 1 }))

/-! ### Resets (spec/01, 11) -/

/-- A power-on reset gives every block its reset value and samples the straps; a pin reset does the same but keeps the calendar's
date, time and clock state, M and the held mark (R15, R16, R32, R58, R84, R99, R117, R135, R155, R172, R183, R190). A port that
was selected comes to wait (R183). That a reset repeated under a held RSTN acts again, where the core clock starts, and the
generation 0 and the absent last frame of a link, are the model's choices: logs 2, 7 and 27. -/
def Obligations.ResetsEmptyTheBlocks : Prop :=
  ∀ (straps : Straps) (s : State),
    let empty : PortQueue := { records := [], overrun := false, filter := [] }
    let port : BitVec 2 → PortState → PortState := fun b ps =>
      { role := Role.ofStraps b, slot := none, chip := if ps.chip = .released then .released else .waiting }
    let blocks : State := { State.reset with
      ports := { a := port straps.a s.ports.a, b := port straps.b s.ports.b, c := port straps.c s.ports.c }
      queues := { a := empty, b := empty, c := empty }
      pending := s.pending
      choice := s.choice }
    exec (.powerOnReset straps) s = .next { blocks with rstn := .asserted .powerOn, core := { now := 0, nextTick := none } } ∧
    exec (.pinReset straps) s = .next { blocks with
      rstn := .asserted .pin
      core := { now := s.core.now, nextTick := none }
      deferred := s.deferred
      cal := { s.cal with h0 := 6, openMin := 0, closeMin := 0, wake := false } }

/-- The release of RSTN recomputes D0 and HUSH, starts the flash ticks, re-judges the hushed marks, and places RESET in every
queue before what the reset kept back; with RSTN released it changes nothing (R5, R16, R113, R146, R190). The first flash tick 100
ms on, and a release of a released RSTN, are the model's choices: logs 2 and 7. -/
def Obligations.ReleaseStartsTheBoard : Prop :=
  ∀ (s : State),
    (s.rstn = .released → exec .resetRelease s = .next s) ∧
    (∀ kind, s.rstn = .asserted kind → s.panels.length = 12 → (∀ c ∈ s.panels, c.zone = .idle) → (∀ r ∈ s.plays, r = none) →
      (∀ p ∈ panelNumbers, s.takeover p = none) →
      let hush := decide (s.cal.clock = .running) && lobbyClosed s.cal.openMin s.cal.closeMin s.cal.wall
      let r : EventRecord :=
        { kind := .reset, m := s.cal.m, second := s.cal.second, subject := .board, number := 0,
          detail := if kind = .powerOn then 1 else 2 }
      exec .resetRelease s = .next { s with
        rstn := .released
        deferred := []
        cal := { s.cal with
          hush
          d0 := if s.cal.clock = .unset then 0 else if s.cal.held then s.cal.d0 else businessBase s.cal.m s.cal.h0 }
        core := { s.core with nextTick := some (s.core.now + 100) }
        panels := s.panels.map fun c => { c with hushed := hush && !s.cal.wake && !c.profile.alwaysLit }
        queues := s.deferred.foldl (offerAll s.ports)
          { a := s.queues.a.push r, b := s.queues.b.push r, c := s.queues.c.push r } })

/-! ### The calendar (spec/01) -/

/-- A second event with no carry, no hold at its last second and no watch at its last: the second field advances, every hold and
the watch count down, the dwell counts of the enabled panels fall, and nothing else changes (R1, R2, R70, R77, R143). The second
event that a panel's dwell expires at is the same event. A carry while the clock is UNSET sets the second field to 0 alone (R1),
and one while M is held moves the date and time on and leaves M (R4). While RSTN is asserted after a pin reset the calendar alone
counts, M with it up to its limit, and a carry at the limit keeps a CLOCK LIMIT for the release (R16). That DWELL_EXPIRY is that
second event whole, that a second event before the release of a power-on reset is not counted, and the tag of a CLOCK LIMIT kept
back, are the model's: logs 1, 36 and 8. -/
def Obligations.SecondEventCountsDown : Prop :=
  (∀ (c : Instr) (s : State), s.rstn = .released → s.Settled → s.cal.second < 59 → (∀ h ∈ s.holds, 2 ≤ h.remaining) →
    (s.watch.sales = .stale ∨ 2 ≤ s.watch.count) →
    (c = .secondEvent ∨ ∃ p, c = .dwellExpiry p ∧ (s.panel (panelOf p)).profile.enabled = true ∧
      ((s.panel (panelOf p)).pageCount = 1 ∨ (s.panel (panelOf p)).noticeCount = 1)) →
    exec c s = .next { s with
      cal := { s.cal with second := s.cal.second + 1 }
      holds := s.holds.map fun h => { h with remaining := h.remaining - 1 }
      watch := if s.watch.sales = .stale then s.watch else { s.watch with count := s.watch.count - 1 }
      panels := s.panels.map fun c =>
        if c.profile.enabled then { c with pageCount := c.pageCount - 1, noticeCount := c.noticeCount - 1 } else c }) ∧
  (∀ s : State, s.Dated →
    let wall := (s.cal.wall + 1) % 1440
    let date := if s.cal.wall = 1439 then nextDate s.cal.year s.cal.month s.cal.day else (s.cal.year, s.cal.month, s.cal.day)
    let later : Calendar :=
      if s.cal.clock = .unset then { s.cal with second := 0 }
      else { s.cal with
        year := date.1
        month := date.2.1
        day := date.2.2
        hour := wall / 60
        minute := wall % 60
        second := 0 }
    (s.rstn = .released → s.Settled → s.cal.second = 59 → (∀ h ∈ s.holds, 2 ≤ h.remaining) →
      (s.watch.sales = .stale ∨ 2 ≤ s.watch.count) → (s.cal.clock = .unset ∨ s.cal.held = true) →
      exec .secondEvent s = .next { s with
        cal := later
        holds := s.holds.map fun h => { h with remaining := h.remaining - 1 }
        watch := if s.watch.sales = .stale then s.watch else { s.watch with count := s.watch.count - 1 }
        panels := s.panels.map fun c =>
          if c.profile.enabled then { c with pageCount := c.pageCount - 1, noticeCount := c.noticeCount - 1 } else c }) ∧
    (s.rstn = .asserted .powerOn → exec .secondEvent s = .next s) ∧
    (s.rstn = .asserted .pin → s.cal.second < 59 →
      exec .secondEvent s = .next { s with cal := { s.cal with second := s.cal.second + 1 } }) ∧
    (s.rstn = .asserted .pin → s.cal.second = 59 → (s.cal.clock = .unset ∨ s.cal.held = true) →
      exec .secondEvent s = .next { s with cal := later }) ∧
    (s.rstn = .asserted .pin → s.cal.second = 59 → s.cal.clock = .running → s.cal.held = false → s.cal.m < 1048575 →
      exec .secondEvent s = .next { s with cal := { later with m := s.cal.m + 1 } }) ∧
    (s.rstn = .asserted .pin → s.cal.second = 59 → s.cal.clock = .running → s.cal.held = false → s.cal.m = 1048575 →
      exec .secondEvent s = .next { s with
        cal := { later with held := true }
        deferred := s.deferred ++
          [{ kind := .clockLimit, m := 1048575, second := 0, subject := .board, number := 0, detail := 0 }] }))

/-- The second event at which one hold runs out: the hold leaves the table and H, HOLD ENDED with reason EXPIRED is raised, the
entry EXPIRE is journalled, and the showing's figures are recomputed (R60, R70, R75, R79). That HOLD_EXPIRY is the whole second
event, and that the record and the entry are tagged with the advanced second, are the model's: logs 1 and 47. -/
def Obligations.HoldExpiryEndsTheHold : Prop :=
  ∀ (tag : Half) (h : Hold) (x : Showing) (s : State), s.rstn = .released → s.Settled → s.Seated → s.cal.second < 59 →
    s.hold? tag.toNat = some h → h.remaining = 1 → (∀ g ∈ s.holds, g ≠ h → 2 ≤ g.remaining) →
    (s.watch.sales = .stale ∨ 2 ≤ s.watch.count) → s.showing? h.showing = some x →
    let y := ({ x with held := x.held - h.count } : Showing).inLine s.figure s.cal.m
    exec (.holdExpiry tag) s = .next (settle (recounted .expire h.count x y { s with
      cal := { s.cal with second := s.cal.second + 1 }
      holds := (s.holds.filter fun g => g.tag != h.tag).map fun g => { g with remaining := g.remaining - 1 }
      watch := if s.watch.sales = .stale then s.watch else { s.watch with count := s.watch.count - 1 }
      panels := s.panels.map fun c =>
        if c.profile.enabled then { c with pageCount := c.pageCount - 1, noticeCount := c.noticeCount - 1 } else c
      outbox := [(Source.seats x.id, { kind := .holdEnded, m := s.cal.m, second := s.cal.second + 1, subject := .hold,
                                       number := h.tag, detail := 1 })]
      choice := s.choice + 1 }))

/-- A minute event advances the wall minute and M by one, moves D0 at the day start and HUSH and WAKE at the lobby's crossings,
and zeroes every tally; the catalogue, the settings, the ports and the links are left alone (R1, R3, R6, R11, R90). At midnight
the date moves on. At the day start, and only then, one DAY START is raised, with the weekday of the date as detail (R6). Every
notice without a link is freed where its expiry minute is reached, and otherwise becomes ACTIVE where it is PENDING and its
activation minute is reached (R107, R108). Every showing is judged, and comes to rest or is freed; in a pace state its pace takes
one update (not stated of one that leaves PLANNED), and its fast flag is recomputed (R38, R39, R90, R93); its seats stay unless a
hold on it runs out or it closes. That MINUTE_EVENT and MIDNIGHT_EVENT are that second event whole is the model's choice: log 1.
-/
def Obligations.MinuteEventAdvancesTheBoardMinute : Prop :=
  ∀ (c : Instr) (s : State), s.rstn = .released → s.Settled → s.Dated → s.cal.clock = .running → s.cal.held = false →
    s.cal.m < 1048575 → s.cal.second = 59 →
    (c = .minuteEvent ∨ c = .secondEvent ∨ (c = .midnightEvent ∧ s.cal.hour = 23 ∧ s.cal.minute = 59)) →
    let wall := (s.cal.wall + 1) % 1440
    let closes := decide (s.cal.openMin ≠ s.cal.closeMin ∧ wall = s.cal.closeMin)
    let opens := decide (s.cal.openMin ≠ s.cal.closeMin ∧ wall = s.cal.openMin)
    let date := if s.cal.wall = 1439 then nextDate s.cal.year s.cal.month s.cal.day else (s.cal.year, s.cal.month, s.cal.day)
    ∃ t : State, exec c s = .next t ∧
      t.cal = { s.cal with
        year := date.1
        month := date.2.1
        day := date.2.2
        hour := wall / 60
        minute := wall % 60
        second := 0
        m := s.cal.m + 1
        d0 := if (s.cal.m + 1) % 1440 = 60 * s.cal.h0 then (s.cal.m : Int) + 1 else s.cal.d0
        hush := closes || (s.cal.hush && !opens)
        wake := s.cal.wake && !closes } ∧
      (∀ x ∈ t.showings, x.tally = 0) ∧
      (s.Seated → State.MinuteTaken (s.cal.m + 1) (fun x => ∀ h ∈ s.holds, h.showing = x.id → 2 ≤ h.remaining) s t) ∧
      (∃ l : List EventRecord, t.queues = l.foldl (offerAll s.ports) s.queues ∧
        l.filter (fun r => decide (r.kind = .dayStart)) =
          if (s.cal.m + 1) % 1440 = 60 * s.cal.h0 then
            [{ kind := .dayStart, m := s.cal.m + 1, second := 0, subject := .board, number := 0,
               detail := weekdayOf date.1 date.2.1 date.2.2 }]
          else []) ∧
      (s.Noticed → ∀ n ∈ s.notices.table, n.link = none →
        let waits := decide (n.state = .pending) && n.activation.elim false fun a => decide (s.cal.m + 1 < a)
        ((∃ e, n.expiry = some e ∧ e ≤ s.cal.m + 1) → t.notice? n.id = none) ∧
        ((∀ e, n.expiry = some e → s.cal.m + 1 < e) → (n.state = .active ∨ waits = true) → t.notice? n.id = some n) ∧
        ((∀ e, n.expiry = some e → s.cal.m + 1 < e) → n.state = .pending → waits = false →
          t.notice? n.id = some { n with
            state := .active
            instant := some { m := s.cal.m + 1, second := 0 }
            position := n.flash.map fun _ => 0 } ∧
          n.id ∈ t.notices.activation)) ∧
      t = { s with
        cal := t.cal
        showings := t.showings
        holds := t.holds
        watch := t.watch
        journal := t.journal
        notices := t.notices
        carousels := t.carousels
        plays := t.plays
        panels := t.panels
        queues := t.queues
        choice := t.choice }

/-- A carry with M at its limit sets the held mark and raises CLOCK LIMIT; M stays, and no minute event is delivered: no showing
and no notice changes (R4). That MINUTE_EVENT is that second event whole is the model's choice: log 1. -/
def Obligations.ClockLimitHoldsTheBoardMinute : Prop :=
  ∀ (c : Instr) (s : State), s.rstn = .released → s.Settled → s.cal.clock = .running → s.cal.held = false →
    s.cal.m = 1048575 → s.cal.second = 59 → (∀ h ∈ s.holds, 2 ≤ h.remaining) → s.watch.sales = .stale →
    (c = .minuteEvent ∨ c = .secondEvent) →
    ∃ t : State, exec c s = .next t ∧
      t.cal.held = true ∧ t.cal.m = 1048575 ∧ t.cal.second = 0 ∧ t.cal.d0 = s.cal.d0 ∧ t.cal.hush = s.cal.hush ∧
      t.cal.wake = s.cal.wake ∧
      t.queues = offerAll s.ports s.queues
        { kind := .clockLimit, m := 1048575, second := 0, subject := .board, number := 0, detail := 0 } ∧
      t = { s with
        cal := t.cal
        holds := s.holds.map fun h => { h with remaining := h.remaining - 1 }
        panels := s.panels.map Panel.second
        queues := t.queues
        choice := s.choice + 1 }

/-- The first SET TIME gives M = 1440 plus the wall minute, starts the clock and sets D0 and HUSH from it (R8). A later one moves
M by its delta: forward it delivers one minute event, which judges every showing and takes its pace and tally (R39, R90),
activates or frees what notices without a link it makes due (R107, R108), raises one DAY START where D0 rises, with the weekday of
the date on which that business day began, and clears WAKE where the span holds a close crossing; backward it delivers none: no
showing, hold or notice changes (R9, R10). The three bytes of the delta in the reply are presumed: log 16. -/
def Obligations.SetTimeSetsTheBoardMinute : Prop :=
  (∀ (t : Txn) (f : TimeFields) (s : State), Taken t [.schedule, .service] s → realInstant f = true → s.cal.held = false →
     s.cal.clock = .unset →
     let wall := 60 * f.hour.toNat + f.minute.toNat
     ∃ u : State, exec (.setTime t f) s = .next (replied t 10 (done false (u24 (1440 + wall) ++ [0, 0, 0])) u) ∧
       u.cal = { s.cal with
         year := f.year.toNat
         month := f.month.toNat
         day := f.day.toNat
         hour := f.hour.toNat
         minute := f.minute.toNat
         second := f.second.toNat
         clock := .running
         m := 1440 + wall
         d0 := businessBase (1440 + wall) s.cal.h0
         hush := lobbyClosed s.cal.openMin s.cal.closeMin wall } ∧
       u = { heard t 9 s with
         cal := u.cal
         carousels := u.carousels
         plays := u.plays
         panels := u.panels
         queues := u.queues
         choice := u.choice }) ∧
  (∀ (t : Txn) (f : TimeFields) (s : State), Taken t [.schedule, .service] s → s.Ranged → realInstant f = true →
     s.cal.held = false → s.cal.clock = .running → -10080 ≤ s.cal.delta f → s.cal.delta f ≤ 10080 →
     0 ≤ (s.cal.m : Int) + s.cal.delta f → (s.cal.m : Int) + s.cal.delta f ≤ 1048575 →
     let wall := 60 * f.hour.toNat + f.minute.toNat
     let m := ((s.cal.m : Int) + s.cal.delta f).toNat
     ∃ u : State, exec (.setTime t f) s = .next (replied t 10 (done false (u24 m ++ s24 (s.cal.delta f))) u) ∧
       u.cal = { s.cal with
         year := f.year.toNat
         month := f.month.toNat
         day := f.day.toNat
         hour := f.hour.toNat
         minute := f.minute.toNat
         second := f.second.toNat
         m
         d0 := businessBase m s.cal.h0
         hush := lobbyClosed s.cal.openMin s.cal.closeMin wall
         wake := u.cal.wake } ∧
       (0 < s.cal.delta f →
         (∀ x ∈ u.showings, x.tally = 0) ∧
         (s.Seated → State.MinuteTaken m (fun _ => True) s u) ∧
         (∃ l : List EventRecord, u.queues = l.foldl (offerAll s.ports) (heard t 9 s).queues ∧
           l.filter (fun r => decide (r.kind = .dayStart)) =
             if s.cal.d0 < u.cal.d0 then
               let day := weekdayOf f.year.toNat f.month.toNat f.day.toNat
               [{ kind := .dayStart, m, second := f.second.toNat, subject := .board, number := 0,
                  detail := if 60 * s.cal.h0 ≤ m % 1440 then day else if day = 1 then 7 else day - 1 }]
             else []) ∧
         (s.Noticed → ∀ n ∈ s.notices.table, n.link = none →
           let waits := decide (n.state = .pending) && n.activation.elim false fun a => decide (m < a)
           ((∃ e, n.expiry = some e ∧ e ≤ m) → u.notice? n.id = none) ∧
           ((∀ e, n.expiry = some e → m < e) → (n.state = .active ∨ waits = true) → u.notice? n.id = some n) ∧
           ((∀ e, n.expiry = some e → m < e) → n.state = .pending → waits = false →
             u.notice? n.id = some { n with
               state := .active
               instant := some { m, second := f.second.toNat }
               position := n.flash.map fun _ => 0 } ∧
             n.id ∈ u.notices.activation)) ∧
         (u.cal.wake = true ↔ s.cal.wake = true ∧
           ¬ (s.cal.openMin ≠ s.cal.closeMin ∧ ∃ k, s.cal.m < k ∧ k ≤ m ∧ k % 1440 = s.cal.closeMin)) ∧
         u = { heard t 9 s with
           cal := u.cal
           showings := u.showings
           holds := u.holds
           journal := u.journal
           notices := u.notices
           carousels := u.carousels
           plays := u.plays
           panels := u.panels
           queues := u.queues
           choice := u.choice }) ∧
       (s.cal.delta f ≤ 0 → u.cal.wake = s.cal.wake ∧
         u = { heard t 9 s with
           cal := u.cal
           carousels := u.carousels
           plays := u.plays
           panels := u.panels
           queues := u.queues
           choice := u.choice }))

/-- WAKE sets WAKE and lights every panel; where WAKE is set already it changes nothing (R12, R14, R146). -/
def Obligations.WakeLightsThePanels : Prop :=
  ∀ (t : Txn) (s : State), Taken t [.desk, .service] s → s.Shape →
    (s.cal.wake = true → exec (.wake t) s = .next (replied t 11 (done false (mark s.cal.hush ++ [1])) (heard t 2 s))) ∧
    (s.cal.wake = false →
      ∃ u : State, exec (.wake t) s = .next (replied t 11 (done false (mark s.cal.hush ++ [1])) u) ∧
        u.cal = { s.cal with wake := true } ∧
        (∀ p ∈ panelNumbers, (u.panel p).hushed = false) ∧
        u.queues = offerAll s.ports s.queues
          { kind := .hush, m := s.cal.m, second := s.cal.second, subject := .board, number := 0,
            detail := if s.cal.hush then 3 else 1 } ∧
        u = { heard t 2 s with
          cal := u.cal
          carousels := u.carousels
          plays := u.plays
          panels := u.panels
          queues := u.queues
          choice := u.choice })

/-! ### The board (spec/10) -/

/-- SET BOARD stores every carried setting within its range and keeps the others, and answers CLAMPED where a carried value was
adjusted or a stored F2 raised; one that carries none changes nothing (R13, R46, R77, R85, R157, R180). A change of H0 recomputes
D0 while M runs; a change of the hours clears WAKE and sets HUSH from the wall minute while the clock runs (R13). A change of the
lifecycle settings moves the purge deadlines and judges every showing (R39, R46), one of F1, F2, W or K alone recomputes every
band (R96), and neither leaves a showing's other fields changed. The order of its owners is a free value, and the wall minute of a
held M is deduced: logs 13 and 15. -/
def Obligations.SetBoardStoresTheSettings : Prop :=
  ∀ (t : Txn) (f : BoardFields) (s : State), Taken t [.schedule, .service] s → s.Ranged → f.spare = 0 →
    let keep : {w : Nat} → Option (BitVec w) → Nat → Nat → Nat → Nat := fun o lo hi old =>
      o.elim old fun x => max lo (min hi x.toNat)
    let out : {w : Nat} → Option (BitVec w) → Nat → Nat → Prop := fun o lo hi => ∃ x, o = some x ∧ (x.toNat < lo ∨ hi < x.toNat)
    let n := (Wire.boardBytes f).length + 2
    ∃ (u : State) (clamped : Bool), exec (.setBoard t f) s = .next (replied t 12 (done clamped u.settingsData) u) ∧
      u.cal.h0 = keep f.h0 0 23 s.cal.h0 ∧
      u.cal.openMin = keep f.openMin 0 1439 s.cal.openMin ∧ u.cal.closeMin = keep f.closeMin 0 1439 s.cal.closeMin ∧
      u.life = { lead := keep f.lead 0 60 s.life.lead, late := keep f.late 0 30 s.life.late,
                 linger := keep f.linger 1 60 s.life.linger } ∧
      u.figure.f1 = keep f.f1 1 998 s.figure.f1 ∧
      u.figure.f2 = max (u.figure.f1 + 1) (min 999 (f.f2.elim s.figure.f2 BitVec.toNat)) ∧
      u.figure.w = keep f.w 0 100 s.figure.w ∧ u.figure.k = keep f.k 0 50 s.figure.k ∧
      u.figure.dc = keep f.dc 9 999 s.figure.dc ∧
      u.watch.period = keep f.watch 5 300 s.watch.period ∧ u.watch.sales = s.watch.sales ∧
      u.framePeriod = keep f.frame 200 1000 s.framePeriod - keep f.frame 200 1000 s.framePeriod % 50 ∧
      (u.cal.year, u.cal.month, u.cal.day, u.cal.hour, u.cal.minute, u.cal.second, u.cal.m) =
        (s.cal.year, s.cal.month, s.cal.day, s.cal.hour, s.cal.minute, s.cal.second, s.cal.m) ∧
      u.cal.clock = s.cal.clock ∧ u.cal.held = s.cal.held ∧
      u.cal.d0 = (if u.cal.h0 ≠ s.cal.h0 ∧ s.cal.clock = .running ∧ s.cal.held = false then businessBase s.cal.m u.cal.h0
        else s.cal.d0) ∧
      (u.cal.openMin = s.cal.openMin → u.cal.closeMin = s.cal.closeMin → u.cal.hush = s.cal.hush ∧ u.cal.wake = s.cal.wake) ∧
      (u.cal.openMin ≠ s.cal.openMin ∨ u.cal.closeMin ≠ s.cal.closeMin → u.cal.wake = false ∧
        u.cal.hush = if s.cal.clock = .running then
          lobbyClosed u.cal.openMin u.cal.closeMin (if s.cal.held then s.cal.m % 1440 else s.cal.wall) else s.cal.hush) ∧
      (s.Seated → u.life = s.life → u.holds = s.holds ∧ u.journal = s.journal ∧ u.notices = s.notices ∧
        u.showings = s.showings.map fun x => { x with
          band := if (u.figure.f1, u.figure.f2, u.figure.w, u.figure.k) = (s.figure.f1, s.figure.f2, s.figure.w, s.figure.k)
            then x.band else x.nextBand u.figure }) ∧
      (s.Seated → u.life ≠ s.life → ∀ x ∈ s.showings,
        let z : Showing := { x with
          purge := if x.state = .ended ∨ x.state = .cancelled
            then x.purge.map fun d => min 1048575 (d + u.life.linger - s.life.linger) else x.purge }
        (z.FreedAt u.life s.cal.m → u.showing? x.id = none) ∧
        (¬ z.FreedAt u.life s.cal.m → ∃ y, u.showing? x.id = some y ∧ z.JudgedTo u.life s.cal.m True y ∧ y.tally = x.tally ∧
          y.pace = (if y.state.code ≥ 4 ∧ x.state.code < 4 then 0 else x.pace))) ∧
      (clamped = true ↔ out f.h0 0 23 ∨ out f.openMin 0 1439 ∨ out f.closeMin 0 1439 ∨ out f.lead 0 60 ∨ out f.late 0 30 ∨
        out f.linger 1 60 ∨ out f.f1 1 998 ∨ f.f2.elim s.figure.f2 BitVec.toNat ≠ u.figure.f2 ∨ out f.w 0 100 ∨ out f.k 0 50 ∨
        out f.dc 9 999 ∨ out f.watch 5 300 ∨ ∃ x, f.frame = some x ∧ x.toNat ≠ u.framePeriod) ∧
      u = { heard t n s with
        cal := u.cal
        life := u.life
        figure := u.figure
        watch := u.watch
        framePeriod := u.framePeriod
        showings := u.showings
        holds := u.holds
        journal := u.journal
        notices := u.notices
        carousels := u.carousels
        plays := u.plays
        panels := u.panels
        queues := u.queues
        choice := u.choice } ∧
      (Wire.boardBytes f = [0, 0] → clamped = false ∧ u = heard t n s)

/-- BOARD CLEAR rebases M while the clock runs, empties the showings, holds, journal and notices, clears every cursor, round, play
and zone, tells every port, and keeps the catalogue, the settings, the profiles, the entries and the links (R17, R181). That BOARD
CLEARED is tagged with the rebased M is the model's reading: log 34. -/
def Obligations.BoardClearEmptiesTheDay : Prop :=
  ∀ (t : Txn) (s : State), Taken t [.service] s →
    let runs := decide (s.cal.clock = .running)
    let closed := lobbyClosed s.cal.openMin s.cal.closeMin s.cal.wall
    let m := if runs then 1440 + s.cal.wall else 0
    ∃ u : State, exec (.boardClear t) s = .next (replied t 13 (done false (u24 m)) u) ∧
      u.cal = (if runs then { s.cal with m, held := false, d0 := businessBase m s.cal.h0, hush := closed } else s.cal) ∧
      u.showings = [] ∧ u.holds = [] ∧ u.journal = Journal.empty ∧ u.notices = NoticeUnit.empty ∧
      u.carousels = s.carousels.map (fun c => { c with cursor := 0, round := none, outcome := .none }) ∧
      u.plays = s.plays.map (fun _ => none) ∧
      u.panels.map (fun c => { c with hushed := false }) = s.panels.map (fun c => { c with
        pageIndex := 0
        pageCount := c.profile.pageDwell
        noticeIndex := 0
        noticeCount := c.profile.noticeDwell
        zone := .idle
        hushed := false }) ∧
      (u.cal.hush = s.cal.hush → u.queues = pushAll s.queues
        { kind := .boardCleared, m := u.cal.m, second := s.cal.second, subject := .board, number := 0,
          detail := portCode t.port }) ∧
      u = { heard t 2 s with
        cal := u.cal
        showings := u.showings
        holds := u.holds
        journal := u.journal
        notices := u.notices
        carousels := u.carousels
        plays := u.plays
        panels := u.panels
        queues := u.queues
        choice := u.choice }

/-! ### The Catalogue (spec/02) -/

/-- PUT AUDITORIUM stores the entry and keeps its state; SUSPEND and RESUME set the state; DROP AUDITORIUM returns an entry that
no live showing names to undefined. PUT FEATURE stores the entry with its runtime within 30 to 300; DROP FEATURE removes one that
no live showing and no carousel entry names. Each changes the one entry and nothing else (R19, R21, R22, R24, R26). The code of an
auditorium's state in a reply is presumed, and the number at the head of a feature's entry deduced: logs 16 and 46. -/
def Obligations.CatalogueRequestsChangeOneEntry : Prop :=
  ((∀ (t : Txn) (a : Byte) (name cap : Half) (s : State), Taken t [.schedule, .service] s → 1 ≤ a.toNat → a.toNat ≤ 24 →
     1 ≤ name.toNat → name.toNat ≤ 384 → (s.text name.toNat).present = true →
     let stored := max 1 (min 1500 cap.toNat)
     let state := (s.auditorium a.toNat).state
     exec (.putAuditorium t a name cap) s = .next (replied t 16
       (done (decide (cap.toNat < 1 ∨ 1500 < cap.toNat)) (u8 a.toNat ++ u16 name.toNat ++ u16 stored ++ u8 state.code))
       ((heard t 7 s).setAuditorium a.toNat { defined := true, name := name.toNat, capacity := stored, state }))) ∧
   (∀ (t : Txn) (a : Byte) (s : State), Taken t [.schedule, .service] s → 1 ≤ a.toNat → a.toNat ≤ 24 →
     (s.auditorium a.toNat).defined = true → (∀ x ∈ s.showings, x.auditorium ≠ a.toNat) →
     exec (.dropAuditorium t a) s = .next (replied t 17 (done false [])
       ((heard t 3 s).setAuditorium a.toNat { defined := false, name := 0, capacity := 0, state := .inService }))) ∧
   (∀ (t : Txn) (a : Byte) (s : State), Taken t [.schedule, .desk, .service] s → 1 ≤ a.toNat → a.toNat ≤ 24 →
     (s.auditorium a.toNat).defined = true →
     exec (.suspendAuditorium t a) s = .next (replied t 18 (done false [1])
       ((heard t 3 s).setAuditorium a.toNat { s.auditorium a.toNat with state := .suspended })) ∧
     exec (.resumeAuditorium t a) s = .next (replied t 19 (done false [0])
       ((heard t 3 s).setAuditorium a.toNat { s.auditorium a.toNat with state := .inService })))) ∧
  ((∀ (t : Txn) (f : Byte) (title : Half) (rating : Byte) (runtime : Half) (s : State), Taken t [.schedule, .service] s →
     1 ≤ f.toNat → f.toNat ≤ 128 → 1 ≤ title.toNat → title.toNat ≤ 384 → rating.toNat ≤ 15 →
     (s.text title.toNat).present = true →
     let stored := max 30 (min 300 runtime.toNat)
     exec (.putFeature t f title rating runtime) s = .next (replied t 20
       (done (decide (runtime.toNat < 30 ∨ 300 < runtime.toNat))
         (u8 f.toNat ++ u16 title.toNat ++ u8 rating.toNat ++ u16 stored))
       ((heard t 8 s).setFeature f.toNat (some { title := title.toNat, rating := rating.toNat, runtime := stored })))) ∧
   (∀ (t : Txn) (f : Byte) (s : State), Taken t [.schedule, .service] s → 1 ≤ f.toNat → f.toNat ≤ 128 →
     (s.feature? f.toNat).isSome = true → (∀ x ∈ s.showings, x.feature ≠ f.toNat) →
     (∀ c ∈ s.carousels, ∀ e ∈ c.ring, e.feature ≠ some f.toNat) →
     exec (.dropFeature t f) s = .next (replied t 21 (done false []) ((heard t 3 s).setFeature f.toNat none))))

/-- PUT TEXT stores the bytes at the next revision modulo 16; DROP TEXT empties a text that nothing refers to and keeps its
revision. Each clears the text's mark in every panel's text-current set, and changes nothing else (R27 to R31). -/
def Obligations.TextRequestsChangeOneText : Prop :=
  (∀ (t : Txn) (id : Half) (bytes : List Byte) (s : State), Taken t [.schedule, .desk, .service] s → 1 ≤ id.toNat →
    id.toNat ≤ 384 → bytes.length ≤ 64 → ((s.port t.port).role = .schedule → id.toNat ≤ 255) →
    ((s.port t.port).role = .desk → 256 ≤ id.toNat) →
    let u := heard t (5 + bytes.length) s
    let revision := ((s.text id.toNat).revision + 1) % 16
    exec (.putText t id bytes) s = .next (replied t 22 (done false (u8 revision)) { u with
      catalogue := { u.catalogue with texts := u.catalogue.texts.set (id.toNat - 1) { present := true, bytes, revision } }
      panels := u.panels.map fun p => { p with current := p.current.filter fun i => decide (i ≠ id.toNat) } })) ∧
  (∀ (t : Txn) (id : Half) (s : State), Taken t [.schedule, .desk, .service] s → 1 ≤ id.toNat → id.toNat ≤ 384 →
    ((s.port t.port).role = .schedule → id.toNat ≤ 255) → ((s.port t.port).role = .desk → 256 ≤ id.toNat) →
    (s.text id.toNat).present = true → (∀ a ∈ s.catalogue.auditoriums, a.defined = true → a.name ≠ id.toNat) →
    (∀ f, some f ∈ s.catalogue.features → f.title ≠ id.toNat) →
    (∀ n ∈ s.notices.table, n.content ≠ .text id.toNat) →
    let u := heard t 4 s
    exec (.dropText t id) s = .next (replied t 23 (done false []) { u with
      catalogue := { u.catalogue with texts := u.catalogue.texts.set (id.toNat - 1) (
        { present := false, bytes := [], revision := (s.text id.toNat).revision } : TextEntry) }
      panels := u.panels.map fun p => { p with current := p.current.filter fun i => decide (i ≠ id.toNat) } }))

/-! ### The Showing Table (spec/03) -/

/-- A PUBLISH that passes its checks creates the record: S, H, tally and pace 0, its band computed from OPEN, its state PLANNED
while its sales-open minute is ahead, SEATING within the seating lead of E, and ON SALE otherwise (R38, R49). With a delay above 0
its DELAYED notice is created with the highest free id, or the reply carries the no-notice mark (R49, R111). No other showing or
notice changes. The no-notice mark at the end of every reply is presumed, and the order of its effects and how its checks take a
minute computed below 0 are deduced: logs 16, 26, 14 and 44. -/
def Obligations.PublishCreatesTheShowing : Prop :=
  ∀ (t : Txn) (f : PublishFields) (s : State), Taken t [.schedule, .service] s → s.publishRefusal f = none →
    let start := s.cal.d0 + 1440 * (f.start.day.toNat : Int) + (f.start.minute.toNat : Int)
    let delay := f.delay.elim 0 fun d => min 180 d.toNat
    let opens := f.salesOpen.map fun o => (s.cal.d0 + 1440 * (o.day.toNat : Int) + (o.minute.toNat : Int)).toNat
    let cap := f.capacity.elim (s.auditorium f.auditorium.toNat).capacity fun c => min 1500 c.toNat
    let waits := opens.elim false fun o => decide (s.cal.m < o)
    let old := s.delayedNotice f.id.toNat
    let state : ShowState :=
      if waits then .planned else if start + delay ≤ s.cal.m + s.life.lead then .seating else .onSale
    ∃ (u : State) (x : Showing) (noNotice : Bool),
      exec (.publish t f) s = .next (replied t 32 (done (publishClamped f)
        (u16 x.id ++ u8 x.state.code ++ u24 x.start ++ u24 (x.start + x.delay) ++ u16 x.cap ++ u16 x.runtime ++ mark noNotice)) u) ∧
      (noNotice = true ↔ 0 < delay ∧ old = none ∧
        (32 ≤ s.notices.table.length ∨ ∀ i, 1 ≤ i → i ≤ 255 → ∃ n ∈ s.notices.table, n.id = i)) ∧
      (delay = 0 ∨ noNotice = true → u.notices = s.notices) ∧
      (s.Noticed → 0 < delay →
        (∀ n, old = some n →
          (∀ i, u.notice? i = if i = n.id then some { n with content := .system 1 delay } else s.notice? i) ∧
          u.notices.activation = s.notices.activation) ∧
        (old = none → noNotice = false → ∃ i, 1 ≤ i ∧ i ≤ 255 ∧ s.notice? i = none ∧
          (∀ j, i < j → j ≤ 255 → s.notice? j ≠ none) ∧
          (∀ j, j ≠ i → u.notice? j = s.notice? j) ∧
          u.notice? i = some
            { id := i, cls := .showing, content := .system 1 delay, scope := 0, link := some f.id.toNat, activation := none,
              expiry := none, flash := none, state := .active, instant := some { m := s.cal.m, second := s.cal.second },
              position := none, system := true } ∧
          u.notices.activation = s.notices.activation ++ [i])) ∧
      u.showing? f.id.toNat = some x ∧
      x = { x with
        id := f.id.toNat
        auditorium := f.auditorium.toNat
        feature := f.feature.toNat
        format := f.format.toNat
        start := start.toNat
        runtime := publishRuntime s f
        delay
        salesOpen := opens
        cap
        sold := 0
        held := 0
        tally := 0
        pace := 0
        fast := false
        oversold := false
        state
        purge := none } ∧
      x.band = moveBand (risingTarget s.figure cap 0 0) (fallingTarget s.figure cap 0 0) .opn ∧
      (∀ id, id ≠ f.id.toNat → u.showing? id = s.showing? id) ∧
      u = { heard t ((Wire.publishBytes f).length + 2) s with
        showings := u.showings
        notices := u.notices
        queues := u.queues
        choice := u.choice }

/-- A MOVE that passes its checks gives the record its new auditorium, start, sales-open minute and capacity, keeps S and H, and
judges it; no other showing and no hold changes (R38, R52). How the checks take a minute computed below 0 is deduced: logs 14 and
44. -/
def Obligations.MoveAmendsTheShowing : Prop :=
  ∀ (t : Txn) (f : MoveFields) (x : Showing) (s : State), Taken t [.schedule, .service] s → s.moveRefusal f = none →
    s.showing? f.id.toNat = some x →
    let minute := fun r : RelTime => (s.cal.d0 + 1440 * (r.day.toNat : Int) + (r.minute.toNat : Int)).toNat
    let start := f.start.elim x.start minute
    let opens := (f.salesOpen.map minute).or x.salesOpen
    let cap := match f.capacity, f.auditorium with
      | some c, _ => min 1500 c.toNat
      | none, some a => (s.auditorium a.toNat).capacity
      | none, none => x.cap
    let waits := decide (x.state = .planned) && opens.elim false fun o => decide (s.cal.m < o)
    let state : ShowState :=
      if waits then .planned else if start + x.delay ≤ s.cal.m + s.life.lead then .seating else .onSale
    ∃ (u : State) (y : Showing),
      exec (.move t f) s = .next (replied t 33 (done (f.capacity.elim false fun c => decide (1500 < c.toNat))
        (u8 y.auditorium ++ u24 y.start ++ u24 (y.start + y.delay) ++ u16 y.cap ++ u8 y.state.code)) u) ∧
      u.showing? f.id.toNat = some y ∧
      y = { x with
        auditorium := f.auditorium.elim x.auditorium BitVec.toNat
        start
        salesOpen := opens
        cap
        state
        band := y.band
        fast := y.fast
        oversold := y.oversold } ∧
      (cap = x.cap → y.band = x.band ∧ y.oversold = x.oversold) ∧
      (cap ≠ x.cap → (y.oversold = true ↔ cap < x.sold + x.held)) ∧
      (∀ id, id ≠ f.id.toNat → u.showing? id = s.showing? id) ∧
      u = { heard t ((Wire.moveBytes f).length + 2) s with
        showings := u.showings
        journal := u.journal
        queues := u.queues
        choice := u.choice }

/-- A DELAY that is taken sets the record's delay and judges it: it comes to the state that its new E makes due, in the states
past STARTED too, and is freed where even its purge deadline is reached. The reply carries the state, E, the DELAYED notice and
the no-notice mark. Where E stays above M, holds and journal are left alone, and the showing's DELAYED notice is created with the
highest free id, updated, or retired where the delay is 0; no other showing and no other notice changes (R38, R53, R54, R111,
R112). The state replied for a freed record is a free value: log 35. -/
def Obligations.DelayAmendsTheShowing : Prop :=
  ∀ (t : Txn) (id : Half) (d : Byte) (x : Showing) (s : State), Taken t [.schedule, .desk, .service] s → id.toNat ≠ 0 →
    s.showing? id.toNat = some x → (x.state = .planned ∨ x.state = .onSale ∨ x.state = .seating) →
    let delay := min 180 d.toNat
    let e := x.start + delay
    let m := s.cal.m
    let waits := decide (x.state = .planned) && x.salesOpen.elim false fun o => decide (m < o)
    let state : ShowState :=
      if waits then .planned
      else if m < e then (if x.state = .seating ∨ e ≤ m + s.life.lead then .seating else .onSale)
      else if m < e + s.life.late then .started
      else if m < e + x.runtime then .closed
      else .ended
    let old := s.delayedNotice id.toNat
    e + x.runtime ≤ 1048575 →
    ∃ (u : State) (code : Nat) (noNotice : Bool),
      exec (.delay t id d) s = .next (replied t 34 (done (decide (180 < d.toNat))
        (u8 code ++ u24 e ++ u8 (((u.delayedNotice id.toNat).map Notice.id).getD 0) ++ mark noNotice)) u) ∧
      (noNotice = true ↔ 0 < delay ∧ old = none ∧
        (32 ≤ s.notices.table.length ∨ ∀ i, 1 ≤ i → i ≤ 255 → ∃ n ∈ s.notices.table, n.id = i)) ∧
      (∀ i, i ≠ id.toNat → u.showing? i = s.showing? i) ∧
      (u.showing? id.toNat = none ↔ waits = false ∧ e + s.life.late ≤ m ∧ e + x.runtime ≤ m ∧
        min 1048575 (e + x.runtime + s.life.linger) ≤ m) ∧
      (∀ y, u.showing? id.toNat = some y → code = state.code ∧
        y = { x with
          delay
          state
          purge := y.purge
          held := y.held
          pace := y.pace
          band := y.band
          fast := y.fast
          oversold := y.oversold } ∧
        (m < e → y = { x with delay, state, fast := y.fast })) ∧
      (m < e → u.holds = s.holds ∧ u.journal = s.journal) ∧
      (m < e → s.Noticed →
        (delay = 0 → (∀ i, u.notice? i = if old.map Notice.id = some i then none else s.notice? i) ∧
          u.notices.activation = s.notices.activation.filter fun i => decide (old.map Notice.id ≠ some i)) ∧
        (0 < delay → ∀ n, old = some n →
          (∀ i, u.notice? i = if i = n.id then some { n with content := .system 1 delay } else s.notice? i) ∧
          u.notices.activation = s.notices.activation) ∧
        (noNotice = true → u.notices = s.notices) ∧
        (0 < delay → old = none → noNotice = false → ∃ i, 1 ≤ i ∧ i ≤ 255 ∧ s.notice? i = none ∧
          (∀ j, i < j → j ≤ 255 → s.notice? j ≠ none) ∧
          (∀ j, j ≠ i → u.notice? j = s.notice? j) ∧
          u.notice? i = some
            { id := i, cls := .showing, content := .system 1 delay, scope := 0, link := some id.toNat, activation := none,
              expiry := none, flash := none, state := .active, instant := some { m, second := s.cal.second },
              position := none, system := true } ∧
          u.notices.activation = s.notices.activation ++ [i])) ∧
      u = { heard t 5 s with
        showings := u.showings
        holds := u.holds
        journal := u.journal
        notices := u.notices
        carousels := u.carousels
        plays := u.plays
        panels := u.panels
        queues := u.queues
        choice := u.choice }

/-- SET CAPACITY gives the record its new C within 0 to 1500 and brings its figures into line: one CAPACITY entry, OVERSOLD, BAND
and the amendment record, and nothing else (R40, R55, R60). -/
def Obligations.SetCapacityRecountsTheShowing : Prop :=
  ∀ (t : Txn) (id c : Half) (x : Showing) (s : State), Taken t [.schedule, .service] s → id.toNat ≠ 0 →
    s.showing? id.toNat = some x → x.state ≠ .ended → x.state ≠ .cancelled →
    let cap := min 1500 c.toNat
    let y := ({ x with cap } : Showing).inLine s.figure s.cal.m
    let u := recounted .capacity cap x y (heard t 6 s)
    exec (.setCapacity t id c) s = .next (replied t 35
      (done (decide (1500 < c.toNat)) (u16 cap ++ u16 x.sold ++ u16 x.held ++ u16 (cap - (x.sold + x.held))))
      (settle { u with outbox := u.outbox ++
        [(Source.showing x.id, { kind := .showingState, m := s.cal.m, second := s.cal.second, subject := .showing,
                                 number := x.id, detail := 8 + x.state.code })] }))

/-- CANCEL puts the record in CANCELLED until M plus the linger, ends every hold on it, sets its pace to 0 and keeps S, and
retires its DELAYED notice; no other showing, no hold on another and no other notice changes (R45, R74, R110). -/
def Obligations.CancelReleasesTheShowing : Prop :=
  ∀ (t : Txn) (id : Half) (x : Showing) (s : State), Taken t [.schedule, .desk, .service] s → s.Seated → id.toNat ≠ 0 →
    s.showing? id.toNat = some x → x.state ≠ .ended → x.state ≠ .cancelled →
    let deadline := min 1048575 (s.cal.m + s.life.linger)
    let old := s.delayedNotice id.toNat
    ∃ (u : State) (y : Showing), exec (.cancel t id) s = .next (replied t 36 (done false (u24 deadline)) u) ∧
      u.showing? id.toNat = some y ∧
      y = { x with state := .cancelled, purge := some deadline, held := 0, pace := 0, fast := false, band := y.band,
                   oversold := decide (x.cap < x.sold) } ∧
      u.holds = s.holds.filter (fun h => decide (h.showing ≠ id.toNat)) ∧
      (∀ i, i ≠ id.toNat → u.showing? i = s.showing? i) ∧
      (s.Noticed → (∀ i, u.notice? i = if old.map Notice.id = some i then none else s.notice? i) ∧
        u.notices.activation = s.notices.activation.filter fun i => decide (old.map Notice.id ≠ some i)) ∧
      u = { heard t 4 s with
        showings := u.showings
        holds := u.holds
        journal := u.journal
        notices := u.notices
        carousels := u.carousels
        plays := u.plays
        panels := u.panels
        queues := u.queues
        choice := u.choice }

/-- A record that has been judged has no transition left that is due at M (R38, R39). -/
def Obligations.JudgedShowingIsAtRest : Prop :=
  ∀ (id : Nat) (x : Showing) (s : State), (judgeShowing lifeSteps id s).showing? id = some x → x.due s.life s.cal.m = none

/-! ### Seat accounting (spec/04) -/

/-- SELL adds seats to S, saturating at 2047, and to the tally, saturating at 255. REFUND takes seats off S, not below 0, and
SNAPSHOT writes S, saturating at 2047; both leave the tally. Each brings the record into line and journals it (R60 to R66). Each
reply carries the showing's seat figures after the request; that C stands among them, after the id, is deduced from R86: log 45.
-/
def Obligations.SeatSalesChangeTheCounts : Prop :=
  (∀ (t : Txn) (id : Half) (n : Byte) (x : Showing) (s : State), Taken t [.sales, .service] s → id.toNat ≠ 0 → n.toNat ≠ 0 →
     s.showing? id.toNat = some x → (s.auditorium x.auditorium).state = .inService →
     (x.state = .onSale ∨ x.state = .seating ∨ x.state = .started ∨ x.state = .closed) →
     let sold := min 2047 (x.sold + n.toNat)
     let added := sold - x.sold
     let seats := fun y : Showing => u16 y.id ++ u16 y.cap ++ u16 y.sold ++ u16 y.held ++ u16 (y.cap - (y.sold + y.held)) ++
       u8 y.band.code ++ mark y.fast ++ mark y.oversold
     let y := ({ x with sold, tally := min 255 (x.tally + added) } : Showing).inLine s.figure s.cal.m
     exec (.sell t id n) s = .next (replied t 48
       (done (decide (added < n.toNat)) (seats y ++ u8 added))
       (settle (recounted .sell added x y (heard t 5 s))))) ∧
  (∀ (t : Txn) (id : Half) (x : Showing) (s : State), Taken t [.sales, .service] s → id.toNat ≠ 0 →
     s.showing? id.toNat = some x →
     let seats := fun y : Showing => u16 y.id ++ u16 y.cap ++ u16 y.sold ++ u16 y.held ++ u16 (y.cap - (y.sold + y.held)) ++
       u8 y.band.code ++ mark y.fast ++ mark y.oversold
     (∀ n : Byte, n.toNat ≠ 0 →
       let removed := min n.toNat x.sold
       let y := ({ x with sold := x.sold - removed } : Showing).inLine s.figure s.cal.m
       exec (.refund t id n) s = .next (replied t 49
         (done (decide (x.sold < n.toNat)) (seats y ++ u8 removed))
         (settle (recounted .refund removed x y (heard t 5 s))))) ∧
     (∀ v : Half,
       let y := ({ x with sold := min 2047 v.toNat } : Showing).inLine s.figure s.cal.m
       exec (.snapshot t id v) s = .next (replied t 50
         (done (decide (2047 < v.toNat)) (seats y))
         (settle (recounted .snapshot (min 2047 v.toNat) x y (heard t 6 s))))))

/-- HOLD grants the smaller of its count and the seats left, for 30 to 1800 seconds, and H rises by the seats granted (R68, R69).
That the reply carries C after the showing id is deduced: log 45. -/
def Obligations.HoldGrantsSeats : Prop :=
  ∀ (t : Txn) (tag id : Half) (n : Byte) (life : Half) (x : Showing) (s : State), Taken t [.sales, .service] s →
    tag.toNat ≠ 0 → id.toNat ≠ 0 → n.toNat ≠ 0 → s.showing? id.toNat = some x →
    (s.auditorium x.auditorium).state = .inService →
    (x.state = .onSale ∨ x.state = .seating ∨ x.state = .started) →
    (∀ h ∈ s.holds, h.tag ≠ tag.toNat) → s.holds.length < 96 → x.sold + x.held < x.cap →
    let granted := min n.toNat (x.cap - (x.sold + x.held))
    let remaining := max 30 (min 1800 life.toNat)
    let y := ({ x with held := x.held + granted } : Showing).inLine s.figure s.cal.m
    let u := heard t 9 s
    exec (.hold t tag id n life) s = .next (replied t 51
      (done (decide (granted < n.toNat ∨ life.toNat < 30 ∨ 1800 < life.toNat))
        (y.seatData ++ u16 tag.toNat ++ u8 granted ++ u16 remaining))
      (settle (recounted .hold granted x y { u with
        holds := insertKey Hold.tag { tag := tag.toNat, showing := id.toNat, count := granted, remaining } u.holds })))

/-- CONFIRM sells the confirmed seats of a hold and RELEASE sells none; both end the whole hold, with HOLD ENDED before the
records of the change (R60, R71, R73, R75). That the tally of a CONFIRM that saturates S grows by the seats added to S, where R62
says the seats it confirmed, is the model's reading: log 37. That the showing id stands once in the replies, and C after it, is
deduced: logs 30 and 45. -/
def Obligations.ConfirmAndReleaseEndTheHold : Prop :=
  ∀ (t : Txn) (tag : Half) (h : Hold) (x : Showing) (s : State), Taken t [.sales, .service] s → tag.toNat ≠ 0 →
    s.hold? tag.toNat = some h → s.showing? h.showing = some x →
    let ended := fun (reason : Nat) (u : State) =>
      { u with
        holds := u.holds.filter (fun g => decide (g.tag ≠ tag.toNat))
        outbox := [(Source.seats x.id, ({ kind := .holdEnded, m := s.cal.m, second := s.cal.second, subject := .hold,
                                          number := tag.toNat, detail := reason } : EventRecord))] }
    (∀ n : Byte, n.toNat ≠ 0 →
      let confirmed := min n.toNat h.count
      let sold := min 2047 (x.sold + confirmed)
      let y := ({ x with sold, tally := min 255 (x.tally + (sold - x.sold)), held := x.held - h.count } : Showing).inLine
        s.figure s.cal.m
      exec (.confirm t tag n) s = .next (replied t 52
        (done (decide (h.count < n.toNat ∨ 2047 < x.sold + confirmed)) (y.seatData ++ u8 confirmed ++ u8 (h.count - confirmed)))
        (settle (recounted .confirm confirmed x y (ended 5 (heard t 5 s)))))) ∧
    (let y := ({ x with held := x.held - h.count } : Showing).inLine s.figure s.cal.m
     exec (.release t tag) s = .next (replied t 53
        (done false (y.seatData ++ u8 h.count))
        (settle (recounted .release h.count x y (ended 4 (heard t 4 s))))))

/-- SWAP JOURNAL closes the FILLING bank and opens an empty one, and READ JOURNAL reads up to ten entries of the CLOSED bank, or is
refused MALFORMED for a start index above 127; neither changes anything else (R82, R83). -/
def Obligations.JournalRequestsSwapAndRead : Prop :=
  ∀ (t : Txn) (s : State), Taken t [.desk, .service] s →
    exec (.swapJournal t) s = .next (replied t 55
      (done false (u8 s.journal.filling.length ++ u16 s.journal.dropped))
      { heard t 2 s with journal := { filling := [], closed := s.journal.filling, dropped := 0 } }) ∧
    (∀ start count : Byte, start.toNat ≤ 127 →
      let entries := (s.journal.closed.drop start.toNat).take (min 10 count.toNat)
      exec (.readJournal t start count) s = .next (replied t 54
        (done (decide (10 < count.toNat))
          (u8 s.journal.closed.length ++ u8 start.toNat ++ u8 entries.length ++ entries.flatMap JournalEntry.bytes))
        (heard t 4 s))) ∧
    (∀ start count : Byte, 127 < start.toNat →
      exec (.readJournal t start count) s = .next (replied t 54 (refuse .malformed) (heard t 4 s)))

/-! ### The availability figure (spec/05) -/

/-- Seats left and occupancy are the figures of R86, and lie in their ranges. -/
def Obligations.SeatsLeftAndOccupancy : Prop :=
  ∀ c s h : Nat,
    (seatsLeft c s h : Int) = max 0 ((c : Int) - s - h) ∧
    (c = 0 → occupancy c s h = 1000) ∧
    (c ≠ 0 → occupancy c s h = min 1000 (1000 * (s + h) / c)) ∧
    occupancy c s h ≤ 1000 ∧
    (c ≤ 1500 → seatsLeft c s h ≤ 1500)

/-- A recomputation raises the band to t_up where that is fuller, else lowers it to t_down where that is emptier, else leaves it;
the band is then FULL exactly when no seat is left, and lies between the targets (R88). -/
def Obligations.BandMovesBetweenItsTargets : Prop :=
  ∀ (f : FigureSettings) (x : Showing),
    let up := risingTarget f x.cap x.sold x.held
    let down := fallingTarget f x.cap x.sold x.held
    (x.band.code < up.code → x.nextBand f = up) ∧
    (up.code ≤ x.band.code → down.code < x.band.code → x.nextBand f = down) ∧
    (up.code ≤ x.band.code → x.band.code ≤ down.code → x.nextBand f = x.band) ∧
    (x.nextBand f = .full ↔ x.cap ≤ x.sold + x.held) ∧
    up.code ≤ (x.nextBand f).code ∧ (x.nextBand f).code ≤ down.code

/-- A minute event takes an eighth off the pace and adds twice the tally, for a showing in a pace state, and zeroes the tally of
every showing; a pace of at most 4087 stays so (R90, R91). -/
def Obligations.PaceFollowsTheTally : Prop :=
  ∀ (m : Nat) (x : Showing),
    let y := x.atMinute m
    y.tally = 0 ∧
    ((x.state = .onSale ∨ x.state = .seating ∨ x.state = .started) → y.pace = x.pace - x.pace / 8 + 2 * x.tally) ∧
    ((x.state = .planned ∨ x.state = .closed ∨ x.state = .ended ∨ x.state = .cancelled) → y.pace = x.pace) ∧
    (x.pace ≤ 4087 → x.tally ≤ 255 → y.pace ≤ 4087)

/-! ### Notices (spec/06) -/

/-- A POST NOTICE that passes its checks creates the notice with the fields carried, PENDING where its activation lies above M and
ACTIVE at the end of the activation list otherwise; with a place free, no other notice changes (R105). That an activation or an
expiry above the largest board minute is stored as computed is deduced: log 33. -/
def Obligations.PostNoticeCreatesTheNotice : Prop :=
  ∀ (t : Txn) (f : NoticeFields) (s : State), Taken t [.desk, .service] s → s.postRefusal f = none →
    s.notices.table.length < 32 →
    let minute := fun r : RelTime => s.cal.d0 + 1440 * (r.day.toNat : Int) + (r.minute.toNat : Int)
    let waits := f.activation.elim false fun r => decide ((s.cal.m : Int) < minute r)
    let flash := f.flash.map fun x : Byte × Byte => (max 1 (min 50 x.1.toNat), max 1 (min 50 x.2.toNat))
    ∃ (u : State) (n : Notice),
      exec (.postNotice t f) s = .next (replied t 64 (done (flashClamped f)
        (u8 f.id.toNat ++ (if waits then [0] else [1]) ++ minuteOrAbsent n.activation ++ minuteOrAbsent n.expiry ++ [0])) u) ∧
      u.notice? f.id.toNat = some n ∧
      n.id = f.id.toNat ∧ n.cls.code = f.cls.toNat ∧
      n.content = (if f.selector = 0 then .text f.value.toNat else .system f.selector.toNat f.value.toNat) ∧
      n.scope.toNat = f.scope.elim 0 BitVec.toNat ∧ n.link = f.link.map BitVec.toNat ∧
      n.activation = f.activation.map (fun r => (minute r).toNat) ∧ n.expiry = f.expiry.map (fun r => (minute r).toNat) ∧
      n.flash = flash ∧ n.system = false ∧
      n.state = (if waits then .pending else .active) ∧
      n.instant = (if waits then none else some { m := s.cal.m, second := s.cal.second }) ∧
      n.position = (if waits then none else flash.map fun _ => 0) ∧
      (∀ i, i ≠ f.id.toNat → u.notice? i = s.notice? i) ∧
      u.notices.activation = (if waits then s.notices.activation else s.notices.activation ++ [f.id.toNat]) ∧
      u = { heard t ((Wire.noticeBytes f).length + 2) s with
        notices := u.notices
        carousels := u.carousels
        plays := u.plays
        panels := u.panels
        queues := u.queues
        choice := u.choice }

/-- An ALERT that finds the table full displaces one notice: of the lowest class present, which is not ALERT, the oldest
activation, an ACTIVE notice before every PENDING one. DISPLACED is raised before the ALERT's own record, and no other notice
changes (R104, R106). -/
def Obligations.AlertDisplacesTheLeastNotice : Prop :=
  ∀ (t : Txn) (f : NoticeFields) (s : State), Taken t [.desk, .service] s → s.Noticed → s.postRefusal f = none →
    32 ≤ s.notices.table.length →
    let record := fun (number detail : Nat) =>
      ({ kind := .noticeState, m := s.cal.m, second := s.cal.second, subject := .notice, number, detail } : EventRecord)
    ∃ (u : State) (d n : Notice),
      exec (.postNotice t f) s = .next (replied t 64 (done (flashClamped f)
        (u8 f.id.toNat ++ u8 n.state.code ++ minuteOrAbsent n.activation ++ minuteOrAbsent n.expiry ++ u8 d.id)) u) ∧
      u.notice? f.id.toNat = some n ∧ n.cls = .alert ∧
      d ∈ s.notices.table ∧ d.cls ≠ .alert ∧ u.notice? d.id = none ∧
      (∀ g ∈ s.notices.table, d.cls.code ≤ g.cls.code) ∧
      (∀ g ∈ s.notices.table, g.cls = d.cls → g.state = .active →
        d.state = .active ∧ s.notices.activation.idxOf d.id ≤ s.notices.activation.idxOf g.id) ∧
      (∀ g ∈ s.notices.table, g.cls = d.cls → g.state = .pending → d.state = .active ∨
        d.activation.getD 0 < g.activation.getD 0 ∨ (d.activation.getD 0 = g.activation.getD 0 ∧ d.id ≤ g.id)) ∧
      (∀ i, i ≠ f.id.toNat → i ≠ d.id → u.notice? i = s.notice? i) ∧
      u.queues = offerAll s.ports (offerAll s.ports s.queues (record d.id 6)) (record f.id.toNat n.state.code) ∧
      u = { heard t ((Wire.noticeBytes f).length + 2) s with
        notices := u.notices
        carousels := u.carousels
        plays := u.plays
        panels := u.panels
        queues := u.queues
        choice := u.choice }

/-- WITHDRAW NOTICE frees the notice: it leaves the table and the activation list, and no other notice changes (R109). -/
def Obligations.WithdrawNoticeFreesTheNotice : Prop :=
  ∀ (t : Txn) (id : Byte) (n : Notice) (s : State), Taken t [.desk, .service] s → id.toNat ≠ 0 → s.notice? id.toNat = some n →
    ∃ u : State, exec (.withdrawNotice t id) s = .next (replied t 65 (done false (u8 id.toNat ++ u8 n.state.code)) u) ∧
      u.notice? id.toNat = none ∧ (∀ i, i ≠ id.toNat → u.notice? i = s.notice? i) ∧
      u.notices.activation = s.notices.activation.filter (fun i => decide (i ≠ id.toNat)) ∧
      u.queues = offerAll s.ports s.queues
        { kind := .noticeState, m := s.cal.m, second := s.cal.second, subject := .notice, number := id.toNat, detail := 4 } ∧
      u = { heard t 3 s with
        notices := u.notices
        carousels := u.carousels
        plays := u.plays
        panels := u.panels
        queues := u.queues
        choice := u.choice }

/-- A flash tick moves every ACTIVE flashing notice on by one place of its rhythm and nothing else but the core clock; a notice is
ON below its on-hold, and throughout without flash (R113). The core clock in milliseconds is the model's choice: log 2. -/
def Obligations.FlashTickTurnsTheRhythm : Prop :=
  (∀ (n : Nat) (s : State), s.core.nextTick = some n →
    exec .flashTick s = .next { s with
      core := { now := max s.core.now n, nextTick := some (n + 100) }
      notices := { s.notices with table := s.notices.table.map Notice.tick } }) ∧
  (∀ s : State, s.core.nextTick = none → exec .flashTick s = .next s) ∧
  (∀ (x : Notice) (a b p : Nat), x.state = .active → x.flash = some (a, b) → x.position = some p → p < a + b →
    x.tick = { x with position := some ((p + 1) % (a + b)) } ∧ x.on = decide (p < a)) ∧
  (∀ x : Notice, x.flash = none → x.tick = x ∧ x.on = true) ∧
  (∀ x : Notice, x.state = .pending → x.tick = x)

/-! ### Carousels (spec/07) -/

/-- PUT ENTRY places the entry with its marks clear: APPEND last, INSERT at p with the cursor moved up where p lies below it,
REPLACE in the place of the one at p; and the play records' references follow. No other carousel changes (R121). -/
def Obligations.PutEntryPlacesTheEntry : Prop :=
  ∀ (t : Txn) (f : EntryFields) (s : State), Taken t [.schedule, .service] s → s.Shape → s.entryRefusal f = none →
    let k := f.carousel.toNat
    let c := s.carousel k
    let p := f.position.toNat
    let e : Entry :=
      { primary := f.primary.toNat, alternate := f.alternate.map BitVec.toNat, usingAlternate := false, disabled := false,
        length := max 5 (min 600 f.length.toNat), feature := f.feature.map BitVec.toNat,
        daypart := f.daypart.map fun w => (w.1.toNat, w.2.toNat) }
    let follow : Nat → Option Nat := fun i =>
      if f.placement = 1 then (if p ≤ i then some (i + 1) else some i)
      else if f.placement = 2 then (if i = p then none else some i)
      else some i
    ∃ (u : State) (place count : Nat),
      exec (.putEntry t f) s = .next (replied t 80
        (done (decide (f.length.toNat < 5 ∨ 600 < f.length.toNat)) (u8 place ++ u8 count)) u) ∧
      place = (if f.placement = 0 then c.ring.length else p) ∧
      count = (if f.placement = 2 then c.ring.length else c.ring.length + 1) ∧
      u.carousel k = { c with
        ring := if f.placement = 0 then c.ring ++ [e] else if f.placement = 1 then c.ring.insertIdx p e else c.ring.set p e
        cursor := if f.placement = 1 ∧ p < c.cursor then c.cursor + 1 else c.cursor
        round := c.round.map fun r => { r with ref := r.ref.bind follow } } ∧
      (∀ i, i ≠ k → u.carousel i = s.carousel i) ∧
      (∀ i, u.play? i = (s.play? i).map fun r => if r.carousel = k then { r with ref := r.ref.bind follow } else r) ∧
      u = { heard t ((Wire.entryBytes f).length + 2) s with carousels := u.carousels, plays := u.plays }

/-- DROP ENTRY removes the entry; the cursor moves down where the entry lay below it, and to 0 where it is then at or above the
count; references to the entry are cut and those above it move down. Nothing else changes: a clip cued or playing goes on. A
carousel outside 1 to 8 or a position above 31 is refused MALFORMED, and a position without an entry UNKNOWN (R122). -/
def Obligations.DropEntryRemovesTheEntry : Prop :=
  (∀ (t : Txn) (carousel position : Byte) (s : State), Taken t [.schedule, .service] s → s.Shape →
     1 ≤ carousel.toNat → carousel.toNat ≤ 8 → position.toNat < (s.carousel carousel.toNat).ring.length →
     let k := carousel.toNat
     let c := s.carousel k
     let p := position.toNat
     let follow : Nat → Option Nat := fun i => if i = p then none else if p < i then some (i - 1) else some i
     let cursor := if p < c.cursor then c.cursor - 1 else c.cursor
     ∃ u : State, exec (.dropEntry t carousel position) s = .next (replied t 81 (done false (u8 (c.ring.length - 1))) u) ∧
       u.carousel k = { c with
         ring := c.ring.eraseIdx p
         cursor := if c.ring.length - 1 ≤ cursor then 0 else cursor
         round := c.round.map fun r => { r with ref := r.ref.bind follow } } ∧
       (∀ i, i ≠ k → u.carousel i = s.carousel i) ∧
       (∀ i, u.play? i = (s.play? i).map fun r => if r.carousel = k then { r with ref := r.ref.bind follow } else r) ∧
       u = { heard t 4 s with carousels := u.carousels, plays := u.plays }) ∧
  (∀ (t : Txn) (carousel position : Byte) (s : State), Taken t [.schedule, .service] s →
    (carousel.toNat = 0 ∨ 8 < carousel.toNat ∨ 31 < position.toNat) →
    exec (.dropEntry t carousel position) s = .next (replied t 81 (refuse .malformed) (heard t 4 s))) ∧
  (∀ (t : Txn) (carousel position : Byte) (s : State), Taken t [.schedule, .service] s → 1 ≤ carousel.toNat → carousel.toNat ≤ 8 →
    position.toNat ≤ 31 → (s.carousel carousel.toNat).ring.length ≤ position.toNat →
    exec (.dropEntry t carousel position) s = .next (replied t 81 (refuse .unknown) (heard t 4 s)))

/-- SET CAROUSEL stores what it carries; a change of mode ends the round, discards the plays that name the carousel and puts their
zones IDLE, and any other SET CAROUSEL leaves plays and round alone (R123). That a fallback clip above 4095 is refused is deduced:
log 31. -/
def Obligations.SetCarouselStoresTheSettings : Prop :=
  ∀ (t : Txn) (f : CarouselFields) (s : State), Taken t [.schedule, .service] s → s.Shape → f.spare = 0 →
    1 ≤ f.carousel.toNat → f.carousel.toNat ≤ 8 → (∀ m, f.mode = some m → m.toNat ≤ 1) →
    (∀ c, f.fallback = some c → c.toNat ≤ 4095) →
    let k := f.carousel.toNat
    let c := s.carousel k
    let mode := f.mode.elim c.mode fun m => if m = 0 then .spread else .lockstep
    let fallback := f.fallback.elim c.fallback fun x => if x = 0 then none else some x.toNat
    let usable := f.fallback.elim c.usable fun x => decide (x ≠ 0)
    let length := f.length.elim c.fallbackLength fun x => max 5 (min 600 x.toNat)
    let horizon := f.horizon.elim c.horizon fun x => max 30 (min 720 x.toNat)
    ∃ (u : State) (clamped : Bool),
      exec (.setCarousel t f) s = .next (replied t 82
        (done clamped (u8 mode.code ++ u16 (fallback.getD 0) ++ u16 length ++ mark usable ++ u16 horizon)) u) ∧
      (clamped = true ↔ (∃ x, f.length = some x ∧ (x.toNat < 5 ∨ 600 < x.toNat)) ∨
        ∃ x, f.horizon = some x ∧ (x.toNat < 30 ∨ 720 < x.toNat)) ∧
      u.carousel k = { c with
        mode, fallback, usable, fallbackLength := length, horizon,
        round := if mode = c.mode then c.round else none } ∧
      (∀ i, i ≠ k → u.carousel i = s.carousel i) ∧
      (∀ p r, mode ≠ c.mode → s.play? p = some r → r.carousel = k →
        u.play? p = none ∧ u.panel p = { s.panel p with zone := .idle }) ∧
      (∀ p, (mode = c.mode ∨ ∀ r, s.play? p = some r → r.carousel ≠ k) →
        u.play? p = s.play? p ∧ u.panel p = s.panel p) ∧
      u = { heard t ((Wire.carouselBytes f).length + 2) s with
        carousels := u.carousels, plays := u.plays, panels := u.panels }

/-- A scan finds the first eligible entry from the cursor, wrapping, and finds nothing only where no entry of the ring is eligible
(R126). -/
def Obligations.ScanFindsTheFirstEligible : Prop :=
  ∀ (s : State) (c : Carousel), c.cursor < c.ring.length →
    (∀ i e, s.scan c = some (i, e) →
      c.ring[i]? = some e ∧ s.eligible c.horizon e = true ∧
      ∃ n, n < c.ring.length ∧ i = (c.cursor + n) % c.ring.length ∧
        ∀ m, m < n → ∀ d, c.ring[(c.cursor + m) % c.ring.length]? = some d → s.eligible c.horizon d = false) ∧
    (s.scan c = none ↔ ∀ d ∈ c.ring, s.eligible c.horizon d = false)

/-! ### Panels and pages (spec/08) -/

/-- SET PANEL stores the profile, pulls the dwell counts down to it, and turns the link on or off where the enabled mark changes; no
other panel's profile and no other link changes (R138, R139, R170). The order of its effects is deduced: log 32. -/
def Obligations.SetPanelStoresTheProfile : Prop :=
  ∀ (t : Txn) (f : PanelFields) (s : State), Taken t [.schedule, .service] s → s.Shape → panelMalformed f = false →
    let p := f.panel.toNat
    let old := (s.panel p).profile
    ∃ u : State, exec (.setPanel t f) s = .next (replied t 96 (done (panelClamped f) (profileBytes p (u.panel p).profile)) u) ∧
      (u.panel p).profile =
        { enabled := decide (f.enabled = 1),
          layout := if f.layout = 0 then .board else if f.layout = 1 then .feature else if f.layout = 2 then .desk else .notice,
          auditoriums := f.auditoriums, featureA := f.featureA.toNat, featureB := f.featureB.toNat,
          rows := max 1 (min 16 f.rows.toNat), pageDwell := max 3 (min 60 f.pageDwell.toNat),
          noticeDwell := max 3 (min 30 f.noticeDwell.toNat), carousel := f.carousel.toNat,
          alwaysLit := decide (f.alwaysLit = 1) } ∧
      (u.panel p).pageCount = min (s.panel p).pageCount (u.panel p).profile.pageDwell ∧
      (u.panel p).noticeCount = min (s.panel p).noticeCount (u.panel p).profile.noticeDwell ∧
      (u.panel p).pageIndex = (s.panel p).pageIndex ∧ (u.panel p).noticeIndex = (s.panel p).noticeIndex ∧
      (old.enabled = false → f.enabled = 1 → u.link p =
        { s.link p with head := .seeking, missRun := 0, nextFrame := some (s.core.now + s.framePeriod) } ∧
        (u.panel p).zone = .idle ∧ (u.panel p).current = []) ∧
      (old.enabled = true → f.enabled = 0 → u.link p =
        { s.link p with head := .absent, missRun := 0, lostCount := 0, nextFrame := none, window := none } ∧
        (u.panel p).zone = .idle ∧ (u.panel p).current = []) ∧
      (old.enabled = decide (f.enabled = 1) → u.link p = s.link p ∧ (u.panel p).current = (s.panel p).current) ∧
      (∀ q, q ≠ p → (u.panel q) = s.panel q ∧ u.link q = s.link q) ∧
      u = { heard t 15 s with
        carousels := u.carousels
        plays := u.plays
        panels := u.panels
        links := u.links
        queues := u.queues
        choice := u.choice }

/-- A panel's row list holds each live showing that passes its profile's tests once, in the order (E, auditorium, id), which is
total on showings of different ids (R36, R141). -/
def Obligations.RowListStandsInDisplayOrder : Prop :=
  (∀ (s : State) (p : Nat), Rising (s.showings.map Showing.id) →
    (s.rowList p).Perm (s.showings.filter (s.panel p).profile.shows) ∧
    (s.rowList p).Pairwise (fun x y => x.before y = true)) ∧
  (∀ x y : Showing, x.id ≠ y.id → (x.before y = true ↔ y.before x = false))

/-- A LIVE or DEGRADED link's frame time composes a PAGE frame and opens the reply window (R140, R157, R158). The page and notice
indexes and their dwell counts turn (R143, R144). The body is in takeover form, with the takeover's notice, exactly under a
takeover (R145); otherwise it carries the row entries of the row list's page and the strip's notice at the notice index (R142 to
R144). Its text blocks are those of R152; in takeover form the rows and the strip count as other pages and notices: log 20. A
member whose zone is IDLE takes, be it the first frame after a stop (log 48): the take outcome is recorded, with CAROUSEL DRY
where FOUND becomes DRY, and what it cues, an entry's clip or the usable fallback, is CUED under the next token (R126, R127,
R148). In SPREAD mode the cursor moves past the entry and the panel alone is cued (R129); in LOCKSTEP mode a take is made with no
round in progress, its round is recorded and every member is cued (R130). The first frame of a cue starts its deadline (R148).
Beyond that nothing but the panel's own indexes and dwell counts and its link changes. The core clock in milliseconds, and a frame
time with a window still open, are the model's choices: logs 2 and 21. -/
def Obligations.FrameTimeComposesAPage : Prop :=
  ∀ (p : Link) (n r : Nat) (s : State), s.Settled → s.Shape → s.Profiled →
    let q := panelOf p
    let old := s.panel q
    let rows := min old.profile.rows r
    let pages := max 1 (((s.rowList q).length + rows - 1) / rows)
    let k := old.profile.carousel
    let c := s.carousel k
    let lock := decide (c.mode = .lockstep)
    let takes := decide (old.zone = .idle) && s.member k q && !(lock && c.round.isSome)
    let found := s.scan c
    let cue : Option Play :=
      match found, c.fallback with
      | some (i, e), _ => some
        { carousel := k, source := .entry, ref := some i, clip := if e.usingAlternate then e.alternate.getD e.primary else e.primary,
          kind := if e.usingAlternate && e.alternate.isSome then .alternate else .primary, length := e.length, roundMark := lock }
      | none, some f =>
        if c.usable then some
          { carousel := k, source := .fallback, ref := none, clip := f, kind := .fallback, length := c.fallbackLength,
            roundMark := lock }
        else none
      | none, none => none
    let cues : Nat → Bool := fun i => takes && (decide (i = q) || (lock && s.member k i))
    let token : Nat → Nat := fun i => if (s.panel i).lastToken = 255 then 1 else (s.panel i).lastToken + 1
    ((s.link q).head = .live ∨ (s.link q).head = .degraded) → (s.link q).nextFrame = some n → (s.link q).headRows = some r →
    ∃ (t : State) (b : PageBody), exec (.frameTime p) s = .next t ∧
      t.link q = { s.link q with
        nextFrame := some (n + s.framePeriod)
        window := some .page
        lastBlank := some old.hushed
        lastFrame := some (.page (s.header q old.hushed) b) } ∧
      (b.takeover = true ↔ ∃ i x, s.takeover q = some i ∧ s.notice? i = some x) ∧
      (b.takeover = false → s.NormalForm q (t.panel q) rows b) ∧
      (∀ i x, s.takeover q = some i → s.notice? i = some x → s.TakeoverForm q (t.panel q) x b) ∧
      b.rows.length ≤ min old.profile.rows r ∧ b.texts.length ≤ 2 ∧
      b.pageIndex = (t.panel q).pageIndex ∧ b.pageIndex < b.pageCount ∧ b.pageCount = pages ∧
      b.trailer = (t.panel q).zone.trailer ∧
      Turned old.pageIndex old.pageCount old.profile.pageDwell pages (t.panel q).pageIndex (t.panel q).pageCount ∧
      Turned old.noticeIndex old.noticeCount old.profile.noticeDwell (s.stripOf q).length
        (t.panel q).noticeIndex (t.panel q).noticeCount ∧
      (∀ i, i ≠ q → t.link i = s.link i) ∧
      (∀ i, t.play? i = match cue with
        | some x => if cues i then some x else s.play? i
        | none => s.play? i) ∧
      (∀ i, i ≠ q → t.panel i = match cue with
        | some x =>
          if cues i then
            { s.panel i with zone := .cued { clip := x.clip, length := x.length, token := token i } none, lastToken := token i }
          else s.panel i
        | none => s.panel i) ∧
      (∀ x, cue = some x → takes = true →
        (t.panel q).zone = .cued { clip := x.clip, length := x.length, token := token q } (some (n + 4000)) ∧
        (t.panel q).lastToken = token q) ∧
      (cue = none ∨ takes = false → (t.panel q).lastToken = old.lastToken ∧
        (t.panel q).zone = match old.zone with
          | .cued x none => .cued x (some (n + 4000))
          | z => z) ∧
      t.panel q = { old with
        pageIndex := (t.panel q).pageIndex
        pageCount := (t.panel q).pageCount
        noticeIndex := (t.panel q).noticeIndex
        noticeCount := (t.panel q).noticeCount
        zone := (t.panel q).zone
        lastToken := (t.panel q).lastToken } ∧
      (∀ i, i ≠ k → t.carousel i = s.carousel i) ∧
      (takes = false → t.carousel k = c) ∧
      (takes = true → t.carousel k = { c with
        outcome := if found.isSome then .found else .dry
        cursor := match found with
          | some (i, _) => if lock then c.cursor else if i + 1 = c.ring.length then 0 else i + 1
          | none => c.cursor
        round :=
          if lock then cue.map fun x =>
            { ref := x.ref, clip := x.clip, kind := x.kind, length := x.length, pending := s.members k }
          else c.round }) ∧
      t.queues = (if takes && found.isNone && decide (c.outcome = .found) then offerAll s.ports s.queues
        { kind := .carouselDry, m := s.cal.m, second := s.cal.second, subject := .carousel, number := k, detail := q }
        else s.queues) ∧
      t = { s with
        core := { s.core with now := max s.core.now n }
        carousels := t.carousels
        plays := t.plays
        panels := t.panels
        links := t.links
        queues := t.queues
        choice := t.choice }

/-- At a frame time a SEEKING link sends an IDENTIFY frame; a LOST link counts, and at the eighth count sends one: there the frame
time is LOST_IDENTIFY. Nothing but the link and the core clock changes (R157, R158). That LOST_IDENTIFY is that frame time whole,
the core clock in milliseconds, and a frame time with a window still open, are the model's choices: logs 1, 2 and 21. -/
def Obligations.FrameTimeCallsForTheHead : Prop :=
  ∀ (c : Instr) (p : Link) (n : Nat) (s : State), s.Settled → (s.link (panelOf p)).nextFrame = some n →
    let q := panelOf p
    let later : State := { s with core := { s.core with now := max s.core.now n } }
    let sent : LinkContext → LinkContext := fun l =>
      { l with nextFrame := some (n + s.framePeriod), window := some .identify, lastBlank := some false,
               lastFrame := some (.identify (s.header q false)) }
    ((s.link q).head = .seeking → c = .frameTime p → exec c s = .next (later.modLink q sent)) ∧
    ((s.link q).head = .lost → (s.link q).lostCount < 7 → c = .frameTime p →
      exec c s = .next (later.modLink q fun l =>
        { l with nextFrame := some (n + s.framePeriod), lostCount := l.lostCount + 1 })) ∧
    ((s.link q).head = .lost → (s.link q).lostCount = 7 → (c = .frameTime p ∨ c = .lostIdentify p) →
      exec c s = .next (later.modLink q fun l => { sent l with lostCount := 0 }))

/-! ### Links (spec/09, 12) -/

/-- The expiry of an open window, and a length field outside 6 to 15, close the window and count a miss: TIMEOUT is latched by the
one in LIVE and DEGRADED, CHECK by the other; at 3 misses a LIVE head is DEGRADED and at 12 a DEGRADED head is LOST, its zone IDLE
and its texts unmarked, and no other panel changes (R159, R162, R163, R169, R194). A panel that comes to DEGRADED keeps its zone
and texts. -/
def Obligations.MissesWearTheHeadOut : Prop :=
  ∀ (c : Instr) (p : Link) (k : FrameKind) (s : State), s.Settled → s.Shape → (s.link (panelOf p)).window = some k →
    (c = .replyWindowExpiry p ∨ ∃ n : Half, c = .reportLengthFailure p n ∧ (n.toNat < 6 ∨ 15 < n.toNat)) →
    let q := panelOf p
    let l := s.link q
    let faulted : LinkContext := { l with
      window := none
      checkFault := l.checkFault || decide (c ≠ .replyWindowExpiry p)
      timeoutFault := l.timeoutFault || (decide (c = .replyWindowExpiry p) && l.head.present) }
    ((l.head = .seeking ∨ l.head = .lost) → exec c s = .next (s.modLink q fun _ => faulted)) ∧
    ((l.head = .live ∧ l.missRun < 2) ∨ (l.head = .degraded ∧ l.missRun < 11) →
      exec c s = .next (s.modLink q fun _ => { faulted with missRun := l.missRun + 1 })) ∧
    (l.head = .live → l.missRun = 2 → ∃ t, exec c s = .next t ∧
      t.link q = { faulted with missRun := 3, head := .degraded } ∧
      (∀ i, i ≠ q → t.link i = s.link i) ∧
      (s.PlaysFit → t = { s with links := t.links, queues := t.queues, choice := t.choice }) ∧
      t.queues = offerAll s.ports s.queues
        { kind := .panelState, m := s.cal.m, second := s.cal.second, subject := .panel, number := q, detail := 3 }) ∧
    (l.head = .degraded → l.missRun = 11 → ∃ t, exec c s = .next t ∧
      t.link q = { faulted with missRun := 12, head := .lost, lostCount := 0 } ∧
      (t.panel q).zone = .idle ∧ (t.panel q).current = [] ∧
      (∀ i, i ≠ q → t.panel i = s.panel i ∧ t.link i = s.link i) ∧
      t.queues = offerAll s.ports s.queues
        { kind := .panelState, m := s.cal.m, second := s.cal.second, subject := .panel, number := q, detail := 4 } ∧
      t = { s with
        carousels := t.carousels
        plays := t.plays
        panels := t.panels
        links := t.links
        queues := t.queues
        choice := t.choice })

/-- A good status report of a LIVE head, of kind NONE and without acknowledgements, closes the window, clears the miss run and
stores the blank state; the same bytes with a wrong CRC latch CHECK and count a miss. Nothing else changes (R160, R161, R163,
R164, R194). One that acknowledges up to two texts marks current those that are present at the revision named (R153), and one of a
DEGRADED head brings it back LIVE with its PANEL STATE (R162, R164). -/
def Obligations.StatusReportAnswersThePage : Prop :=
  (∀ (p : Link) (blank token hi lo : Byte) (s : State), s.Settled →
    let q := panelOf p
    let body : List Byte := [0, 6, 8, BitVec.ofNat 8 q, blank, token, 0, 0]
    (s.link q).window = some .page → (s.link q).head = .live → (s.link q).missRun < 2 → blank.toNat ≤ 1 →
    exec (.headReport p (0xA5#8 :: withCrc body)) s = .next (s.modLink q fun l =>
      { l with window := none, missRun := 0, reportedBlank := some (decide (blank = 1)) }) ∧
    (crc body ≠ hi ++ lo →
      exec (.headReport p (0xA5#8 :: (body ++ [hi, lo]))) s = .next (s.modLink q fun l =>
        { l with window := none, missRun := l.missRun + 1, checkFault := true }))) ∧
  (∀ (p : Link) (blank token : Byte) (acks : List (Half × Byte)) (s : State), s.Settled → s.Shape → s.PlaysFit →
    let q := panelOf p
    let body : List Byte := [0, BitVec.ofNat 8 (6 + 3 * acks.length), 8, BitVec.ofNat 8 q, blank, token, 0,
      BitVec.ofNat 8 acks.length] ++ acks.flatMap fun a => [Wire.hiByte a.1, Wire.loByte a.1, a.2]
    (s.link q).window = some .page → ((s.link q).head = .live ∨ (s.link q).head = .degraded) → blank.toNat ≤ 1 →
    acks.length ≤ 2 →
    ∃ t : State, exec (.headReport p (0xA5#8 :: withCrc body)) s = .next t ∧
      t.link q = { s.link q with
        head := .live, window := none, missRun := 0, reportedBlank := some (decide (blank = 1)) } ∧
      (∀ i, i ≠ q → t.link i = s.link i ∧ t.panel i = s.panel i) ∧
      t.panel q = { s.panel q with current := (t.panel q).current } ∧
      (∀ i, i ∈ (t.panel q).current ↔ i ∈ (s.panel q).current ∨
        ∃ a ∈ acks, a.1.toNat = i ∧ (s.text i).present = true ∧ (s.text i).revision = a.2.toNat) ∧
      t.queues = (if (s.link q).head = .degraded then offerAll s.ports s.queues
        { kind := .panelState, m := s.cal.m, second := s.cal.second, subject := .panel, number := q, detail := 2 }
        else s.queues) ∧
      t = { s with links := t.links, panels := t.panels, queues := t.queues, choice := t.choice })

/-- A clip report with the current token moves the zone: STARTED starts a CUED play with a deadline of the cue length and 5 seconds,
COMPLETED and FAULT end the play, and FAULT flips the entry to its alternate once and disables it otherwise, raising CLIP FAULT. One
with another token is ignored (R132, R133, R149). Stated of a LIVE head and outside a round. The core clock in milliseconds is the
model's choice: log 2. -/
def Obligations.ClipReportsMoveTheZone : Prop :=
  ∀ (p : Link) (blank token clip : Byte) (cue : Cue) (s : State), s.Settled →
    let q := panelOf p
    let body : List Byte := [0, 6, 8, BitVec.ofNat 8 q, blank, token, clip, 0]
    let report := Instr.headReport p (0xA5#8 :: withCrc body)
    let after := s.modLink q fun l => { l with window := none, missRun := 0, reportedBlank := some (decide (blank = 1)) }
    let ended := (after.modPanel q fun c => { c with zone := .idle }).setPlay q none
    (s.link q).window = some .page → (s.link q).head = .live → blank.toNat ≤ 1 → (s.panel q).zone.cue = some cue →
    (cue.token ≠ token.toNat → clip.toNat ≤ 3 → exec report s = .next after) ∧
    (cue.token = token.toNat → clip = 1 → ∀ d, (s.panel q).zone = .cued cue d →
      exec report s = .next (after.modPanel q fun c =>
        { c with zone := .playing cue (s.core.now + 1000 * cue.length + 5000) })) ∧
    (cue.token = token.toNat → clip = 1 → ∀ d, (s.panel q).zone = .playing cue d → exec report s = .next after) ∧
    (cue.token = token.toNat → ∀ r, s.play? q = some r → r.roundMark = false →
      (clip = 2 → exec report s = .next ended) ∧
      (clip = 3 → r.source = .entry → r.kind ≠ .fallback → ∀ i e, r.ref = some i → (s.carousel r.carousel).ring[i]? = some e →
        let code :=
          if r.kind = .primary then (if e.alternate.isSome then (if e.usingAlternate then 0 else 1) else 2)
          else if e.disabled then 0 else 2
        let marked : Entry := { e with
          usingAlternate := e.usingAlternate || decide (code = 1)
          disabled := e.disabled || decide (code = 2) }
        exec report s = .next { (ended.modCarousel r.carousel fun c => { c with ring := c.ring.set i marked }) with
          queues := offerAll s.ports s.queues
            { kind := .clipFault, m := s.cal.m, second := s.cal.second, subject := .carousel, number := r.carousel,
              detail := r.clip + 4096 * code }
          choice := s.choice + 1 }))

/-- A good report with an identity section brings a SEEKING or LOST head LIVE, with the identity stored, its run and count 0,
PANEL STATE raised, and after it the changed generation and the clamps (R162, R165, R167, R168, R169). Of a LIVE or DEGRADED head
it is the report of a head that has restarted: the head goes through SEEKING, which stops the zone and empties the text-current
set, to LIVE (R166). -/
def Obligations.IdentityBringsTheHeadLive : Prop :=
  ∀ (p : Link) (k : FrameKind) (blank token rows zone gen : Byte) (s : State), s.Settled → s.Shape → s.ZoneFits (panelOf p) →
    let q := panelOf p
    let l := s.link q
    let body : List Byte := [0, 9, 9, BitVec.ofNat 8 q, blank, token, 0, 0, rows, zone, gen]
    l.window = some k → blank.toNat ≤ 1 → 1 ≤ rows.toNat → rows.toNat ≤ 16 →
    let record := fun (kind : EventKind) (detail : Nat) =>
      ({ kind, m := s.cal.m, second := s.cal.second, subject := .panel, number := q, detail } : EventRecord)
    let clamps := (if rows.toNat < (s.panel q).profile.rows then 1 else 0)
      + (if (s.panel q).profile.carousel ≠ 0 ∧ zone = 0 then 2 else 0)
    let records := record .panelState 2
      :: ((if l.generationKnown = true ∧ l.generation ≠ gen.toNat then [record .panelState (256 + gen.toNat)] else [])
        ++ (if clamps = 0 then [] else [record .layoutClamped (rows.toNat + 256 * clamps)]))
    let taken : LinkContext := { l with
      head := .live
      missRun := 0
      lostCount := 0
      window := none
      headRows := some rows.toNat
      zonePresent := some (decide (zone ≠ 0))
      generation := gen.toNat
      generationKnown := true
      reportedBlank := some (decide (blank = 1)) }
    (l.head = .seeking ∨ l.head = .lost →
      exec (.headReport p (0xA5#8 :: withCrc body)) s = .next { s.modLink q (fun _ => taken) with
        queues := records.foldl (offerAll s.ports) s.queues
        choice := s.choice + records.length }) ∧
    (l.head = .live ∨ l.head = .degraded →
      ∃ t : State, exec (.headReport p (0xA5#8 :: withCrc body)) s = .next t ∧
        t.link q = taken ∧ t.panel q = { s.panel q with zone := .idle, current := [] } ∧ t.play? q = none ∧
        (∀ i, i ≠ q → t.link i = s.link i ∧ t.panel i = s.panel i ∧ t.play? i = s.play? i) ∧
        t.queues = (record .panelState 1 :: records).foldl (offerAll s.ports) s.queues ∧
        t = { s with
          carousels := t.carousels
          plays := t.plays
          panels := t.panels
          links := t.links
          queues := t.queues
          choice := t.choice })

/-- The zone deadline returns the zone to IDLE and discards the play, with CLIP TIMEOUT: kind 0 from CUED and 1 from PLAYING. A
play of a round leaves its pending set, and the round ends when the set is empty, the cursor moving past its entry; nothing else
changes (R131, R132, R150). The core clock in milliseconds is the model's choice: log 2. -/
def Obligations.ZoneDeadlineEndsThePlay : Prop :=
  ∀ (p : Link) (d : Nat) (cue : Cue) (r : Play) (s : State), s.Settled → s.Shape →
    let q := panelOf p
    ((s.panel q).zone = .cued cue (some d) ∨ (s.panel q).zone = .playing cue d) → s.play? q = some r →
    let kind := if (s.panel q).zone = .playing cue d then 1 else 0
    let leave : Carousel → Carousel := fun c =>
      match c.round with
      | none => c
      | some x =>
        let pending := x.pending &&& ~~~(1#12 <<< (q - 1))
        if pending = 0 then { c with
          round := none
          cursor := x.ref.elim c.cursor fun i => if i + 1 = c.ring.length then 0 else i + 1 }
        else { c with round := some { x with pending } }
    let ended := (s.modPanel q fun c => { c with zone := .idle }).setPlay q none
    exec (.zoneDeadline p) s = .next { (if r.roundMark then ended.modCarousel r.carousel leave else ended) with
      core := { s.core with now := max s.core.now d }
      queues := offerAll s.ports s.queues
        { kind := .clipTimeout, m := s.cal.m, second := s.cal.second, subject := .panel, number := q,
          detail := r.clip + 4096 * kind }
      choice := s.choice + 1 }

/-- The CRC runs over the bytes, most significant bit first, by the polynomial x^16 + x^12 + x^5 + 1 from FFFF: over the
characters 123456789 it gives 29B1. Every frame is closed by the CRC of the bytes after its start mark, and a report passes when
the CRC it carries is that of the bytes received after its start mark; run on through the two CRC bytes the computation ends at 0
(R161). -/
def Obligations.CrcClosesEveryFrame : Prop :=
  crc [0x31, 0x32, 0x33, 0x34, 0x35, 0x36, 0x37, 0x38, 0x39] = 0x29B1#16 ∧
  (∀ (c : BitVec 16) (b : Bool), crcBit c b =
    (c <<< 1) ^^^ (if c.getLsbD 15 = b then 0#16 else (1#16 <<< 12) ^^^ (1#16 <<< 5) ^^^ 1#16)) ∧
  crc [] = 0xFFFF#16 ∧
  (∀ (b : List Byte) (x : Byte), crc (b ++ [x]) = (List.range 8).foldl (fun c i => crcBit c (x.getLsbD (7 - i))) (crc b)) ∧
  (∀ (h l hi lo : Byte) (b : List Byte), 6 ≤ (Wire.half h l).toNat → (Wire.half h l).toNat ≤ 15 →
    b.length = (Wire.half h l).toNat →
    arrived (0xA5#8 :: h :: l :: (b ++ [hi, lo])) = .complete (if crc (h :: l :: b) = hi ++ lo then readReport b else none)) ∧
  (∀ b : List Byte, crc (withCrc b) = 0) ∧
  (∀ f : Frame, ∃ b : List Byte, f.bytes = 0xA5#8 :: (b ++ [Wire.hiByte (crc b), Wire.loByte (crc b)]))

/-! ### Queries -/

/-- Every query answers with the state as the message found it and changes nothing; QUERY PANEL then clears the link's three
latched faults (R56, R76, R116, R134, R171, R182). The bytes for what is absent, the count byte of the ids, the effective rows of
a head never identified, the order of the plays and of an entry's fields, the page count, the zone-disabled byte and the order of
the three faults are the model's: logs 16, 17, 18, 38, 39, 41, 42 and 49. -/
def Obligations.QueriesAnswerTheStateAsItStands : Prop :=
  ((∀ (t : Txn) (id : Half) (x : Showing) (s : State), Taken t [.schedule, .sales, .desk, .service] s → id.toNat ≠ 0 →
     s.showing? id.toNat = some x →
     exec (.queryShowing t id) s = .next (replied t 5 (done false (s.showingData x)) (heard t 4 s))) ∧
   (∀ (t : Txn) (tag : Half) (h : Hold) (s : State), Taken t [.schedule, .sales, .desk, .service] s → tag.toNat ≠ 0 →
     s.hold? tag.toNat = some h →
     exec (.queryHold t tag) s = .next (replied t 6
       (done false (u16 h.tag ++ u16 h.showing ++ u8 h.count ++ u16 h.remaining)) (heard t 4 s))) ∧
   (∀ (t : Txn) (id : Byte) (s : State), Taken t [.schedule, .sales, .desk, .service] s →
     (id.toNat = 0 → exec (.queryNotice t id) s = .next (replied t 7 (done false s.noticeTableData) (heard t 3 s))) ∧
     (∀ n, id.toNat ≠ 0 → s.notice? id.toNat = some n →
       exec (.queryNotice t id) s = .next (replied t 7 (done false (s.noticeData n)) (heard t 3 s))))) ∧
  (∀ (t : Txn) (s : State), Taken t [.schedule, .sales, .desk, .service] s →
     exec (.queryBoard t) s = .next (replied t 4 (done false ((heard t 2 s).boardData t.port)) (heard t 2 s)) ∧
     (∀ k start : Byte, 1 ≤ k.toNat → k.toNat ≤ 8 → start.toNat ≤ 31 →
       exec (.queryCarousel t k start) s = .next (replied t 8
         (done false ((heard t 4 s).carouselData k.toNat start.toNat)) (heard t 4 s))) ∧
     (∀ p : Byte, 1 ≤ p.toNat → p.toNat ≤ 12 →
       let u := heard t 3 s
       exec (.queryPanel t p) s = .next (replied t 9
         (done false (profileBytes p.toNat (s.panel p.toNat).profile ++ u.contextData p.toNat ++ u.linkData p.toNat))
         (u.modLink p.toNat fun l => { l with checkFault := false, timeoutFault := false, identityFault := false }))))

/-! ### The wire -/

/-- The message of every well-formed request, with any surplus bytes behind it, is read back as that request, every field at every
value (R175, R191, R192). -/
def Obligations.MessagesReadBackAsTheirRequests : Prop :=
  ∀ (i : Instr) (t : Txn) (kind : Nat) (b m extra : List Byte), i.wellFormed = true → Wire.fieldsOf i = some (t, kind, b) →
    Wire.messageBytes i = some (t.port, m) → t.surplus = extra.length →
    Wire.readTransaction t.port (m ++ extra) = i

/-! ### Invariants of every step -/

/-- The state after reset meets every invariant. -/
def Obligations.ResetMeetsTheInvariants : Prop :=
  State.reset.Shape ∧ State.reset.Dated ∧ State.reset.Ranged ∧ State.reset.Seated ∧ State.reset.Noticed ∧ State.reset.Zoned ∧
    State.reset.Profiled ∧ State.reset.PlaysFit

/-- Every step keeps the sizes of the tables and the bounds of the queues, the banks and the rings, and ends every arrival it
begins. -/
def Obligations.EveryStepKeepsTheShape : Prop :=
  ∀ s t : State, s.Shape → step s = .next t → t.Shape

/-- Every step keeps the calendar a real instant with M in its range (R1, R4), and every board setting in its range with F1 below F2
(R85, R180), and every panel's profile in the ranges of R138. -/
def Obligations.EveryStepKeepsTheDateAndSettings : Prop :=
  (∀ s t : State, s.Dated → step s = .next t → t.Dated) ∧
  (∀ s t : State, s.Ranged → step s = .next t → t.Ranged) ∧
  (∀ s t : State, s.Profiled → step s = .next t → t.Profiled)

/-- Every step keeps H of every live showing equal to the sum of the counts of the live holds that name it, and every hold on a
showing in a state that takes holds (R59, R67, R74). -/
def Obligations.EveryStepKeepsHeldTheSumOfHolds : Prop :=
  ∀ s t : State, s.Shape → s.Seated → step s = .next t → t.Seated

/-- Every step keeps each ACTIVE notice once in the activation list and every takeover entry the newest ACTIVE ALERT in scope (R101,
R114). -/
def Obligations.EveryStepKeepsTheTakeovers : Prop :=
  ∀ s t : State, s.Shape → s.Noticed → step s = .next t → t.Noticed

/-- Every step keeps a zone busy exactly while a play record stands, and only under a head that is present, lit and not taken over
(R120, R146, R154); and every panel with a play a member of the play's carousel (R128, R131). -/
def Obligations.EveryStepKeepsTheZones : Prop :=
  (∀ s t : State, s.Shape → s.Zoned → step s = .next t → t.Zoned) ∧
  (∀ s t : State, s.Shape → s.Zoned → s.PlaysFit → step s = .next t → t.PlaysFit)
end

