-- ==== Sys2Proof/Laws/Board.lean ====
section
/-! SUPPORT. Where the BANDs of a SET BOARD stand (R60, R89), and that placing them changes nothing else. -/

namespace Sys2Proof.Machine

/-- Nothing from that place on passes the test. -/
theorem afterLast_drop {α : Type} (test : α → Bool) (l : List α) : ∀ y ∈ l.drop (afterLast test l), test y = false := by
  induction l with
  | nil => simp
  | cons x l ih =>
    unfold afterLast
    by_cases n : afterLast test l = 0
    · by_cases h : test x = true
      · simpa [n, h] using fun y hy => ih y (by simpa [n] using hy)
      · simp only [n, h, if_true]
        intro y hy
        rcases List.mem_cons.1 hy with rfl | hy
        · simpa using h
        · exact ih y (by simpa [n] using hy)
    · simpa [n] using ih

/-- A settings' BAND is inserted where no HOLD ENDED of its showing stands at its place or behind it. -/
theorem joinBand_after_holds (first : Bool) (k : Nat) (l : List (Source × EventRecord)) (x : Source × EventRecord) :
    ∃ n, joinBand first k l x = l.insertIdx n x ∧ ∀ y ∈ l.drop n, y.1 = x.1 → y.2.kind ≠ .holdEnded := by
  refine ⟨_, rfl, fun y hy same ended => ?_⟩
  have h := afterLast_drop _ l y (List.mem_of_mem_drop (i := _) (by rw [List.drop_drop]; exact hy))
  simp [same, ended] at h

/-- Joining the BANDs touches the outbox and the choice alone. -/
theorem joinBands_rest (first : Bool) (bands : List (Source × EventRecord)) (s : State) :
    ∃ box k, joinBands first bands s = { s with outbox := box, choice := k } := by
  induction bands generalizing s with
  | nil => exact ⟨s.outbox, s.choice, rfl⟩
  | cons x l ih =>
    obtain ⟨box, k, h⟩ := ih { s with outbox := joinBand first s.choice s.outbox x, choice := s.choice + 1 }
    exact ⟨box, k, h⟩

end Sys2Proof.Machine
end

