-- ==== Sys2Proof/Laws/State.lean ====
section
/-! SUPPORT. What each update of State leaves in each field, and in each thing read from one: every lemma is true by rfl. -/

namespace Sys2Proof.Machine

/-! ### modShowing -/

@[simp] theorem State.modShowing_rstn (id : Nat) (f : Showing → Showing) (s : State) : (s.modShowing id f).rstn = s.rstn := rfl
@[simp] theorem State.modShowing_deferred (id : Nat) (f : Showing → Showing) (s : State) :
    (s.modShowing id f).deferred = s.deferred := rfl
@[simp] theorem State.modShowing_cal (id : Nat) (f : Showing → Showing) (s : State) : (s.modShowing id f).cal = s.cal := rfl
@[simp] theorem State.modShowing_core (id : Nat) (f : Showing → Showing) (s : State) : (s.modShowing id f).core = s.core := rfl
@[simp] theorem State.modShowing_catalogue (id : Nat) (f : Showing → Showing) (s : State) :
    (s.modShowing id f).catalogue = s.catalogue := rfl
@[simp] theorem State.modShowing_showings (id : Nat) (f : Showing → Showing) (s : State) :
    (s.modShowing id f).showings = modKey Showing.id id f s.showings := rfl
@[simp] theorem State.modShowing_life (id : Nat) (f : Showing → Showing) (s : State) : (s.modShowing id f).life = s.life := rfl
@[simp] theorem State.modShowing_holds (id : Nat) (f : Showing → Showing) (s : State) : (s.modShowing id f).holds = s.holds := rfl
@[simp] theorem State.modShowing_watch (id : Nat) (f : Showing → Showing) (s : State) : (s.modShowing id f).watch = s.watch := rfl
@[simp] theorem State.modShowing_journal (id : Nat) (f : Showing → Showing) (s : State) :
    (s.modShowing id f).journal = s.journal := rfl
@[simp] theorem State.modShowing_figure (id : Nat) (f : Showing → Showing) (s : State) :
    (s.modShowing id f).figure = s.figure := rfl
@[simp] theorem State.modShowing_notices (id : Nat) (f : Showing → Showing) (s : State) :
    (s.modShowing id f).notices = s.notices := rfl
@[simp] theorem State.modShowing_carousels (id : Nat) (f : Showing → Showing) (s : State) :
    (s.modShowing id f).carousels = s.carousels := rfl
@[simp] theorem State.modShowing_plays (id : Nat) (f : Showing → Showing) (s : State) : (s.modShowing id f).plays = s.plays := rfl
@[simp] theorem State.modShowing_panels (id : Nat) (f : Showing → Showing) (s : State) :
    (s.modShowing id f).panels = s.panels := rfl
@[simp] theorem State.modShowing_links (id : Nat) (f : Showing → Showing) (s : State) : (s.modShowing id f).links = s.links := rfl
@[simp] theorem State.modShowing_framePeriod (id : Nat) (f : Showing → Showing) (s : State) :
    (s.modShowing id f).framePeriod = s.framePeriod := rfl
@[simp] theorem State.modShowing_ports (id : Nat) (f : Showing → Showing) (s : State) : (s.modShowing id f).ports = s.ports := rfl
@[simp] theorem State.modShowing_queues (id : Nat) (f : Showing → Showing) (s : State) :
    (s.modShowing id f).queues = s.queues := rfl
@[simp] theorem State.modShowing_pending (id : Nat) (f : Showing → Showing) (s : State) :
    (s.modShowing id f).pending = s.pending := rfl
@[simp] theorem State.modShowing_outbox (id : Nat) (f : Showing → Showing) (s : State) :
    (s.modShowing id f).outbox = s.outbox := rfl
@[simp] theorem State.modShowing_journalBox (id : Nat) (f : Showing → Showing) (s : State) :
    (s.modShowing id f).journalBox = s.journalBox := rfl
@[simp] theorem State.modShowing_choice (id : Nat) (f : Showing → Showing) (s : State) :
    (s.modShowing id f).choice = s.choice := rfl
@[simp] theorem State.modShowing_read_hold? (id : Nat) (f : Showing → Showing) (s : State) (i : Nat) :
    (s.modShowing id f).hold? i = s.hold? i := rfl
@[simp] theorem State.modShowing_read_notice? (id : Nat) (f : Showing → Showing) (s : State) (i : Nat) :
    (s.modShowing id f).notice? i = s.notice? i := rfl
@[simp] theorem State.modShowing_read_auditorium (id : Nat) (f : Showing → Showing) (s : State) (i : Nat) :
    (s.modShowing id f).auditorium i = s.auditorium i := rfl
@[simp] theorem State.modShowing_read_feature? (id : Nat) (f : Showing → Showing) (s : State) (i : Nat) :
    (s.modShowing id f).feature? i = s.feature? i := rfl
@[simp] theorem State.modShowing_read_text (id : Nat) (f : Showing → Showing) (s : State) (i : Nat) :
    (s.modShowing id f).text i = s.text i := rfl
@[simp] theorem State.modShowing_read_carousel (id : Nat) (f : Showing → Showing) (s : State) (i : Nat) :
    (s.modShowing id f).carousel i = s.carousel i := rfl
@[simp] theorem State.modShowing_read_play? (id : Nat) (f : Showing → Showing) (s : State) (i : Nat) :
    (s.modShowing id f).play? i = s.play? i := rfl
@[simp] theorem State.modShowing_read_panel (id : Nat) (f : Showing → Showing) (s : State) (i : Nat) :
    (s.modShowing id f).panel i = s.panel i := rfl
@[simp] theorem State.modShowing_read_link (id : Nat) (f : Showing → Showing) (s : State) (i : Nat) :
    (s.modShowing id f).link i = s.link i := rfl
@[simp] theorem State.modShowing_read_takeover (id : Nat) (f : Showing → Showing) (s : State) (i : Nat) :
    (s.modShowing id f).takeover i = s.takeover i := rfl
@[simp] theorem State.modShowing_read_port (id : Nat) (f : Showing → Showing) (s : State) (i : Port) :
    (s.modShowing id f).port i = s.port i := rfl
@[simp] theorem State.modShowing_read_queue (id : Nat) (f : Showing → Showing) (s : State) (i : Port) :
    (s.modShowing id f).queue i = s.queue i := rfl

/-! ### modCarousel -/

@[simp] theorem State.modCarousel_rstn (k : Nat) (f : Carousel → Carousel) (s : State) : (s.modCarousel k f).rstn = s.rstn := rfl
@[simp] theorem State.modCarousel_deferred (k : Nat) (f : Carousel → Carousel) (s : State) :
    (s.modCarousel k f).deferred = s.deferred := rfl
@[simp] theorem State.modCarousel_cal (k : Nat) (f : Carousel → Carousel) (s : State) : (s.modCarousel k f).cal = s.cal := rfl
@[simp] theorem State.modCarousel_core (k : Nat) (f : Carousel → Carousel) (s : State) : (s.modCarousel k f).core = s.core := rfl
@[simp] theorem State.modCarousel_catalogue (k : Nat) (f : Carousel → Carousel) (s : State) :
    (s.modCarousel k f).catalogue = s.catalogue := rfl
@[simp] theorem State.modCarousel_showings (k : Nat) (f : Carousel → Carousel) (s : State) :
    (s.modCarousel k f).showings = s.showings := rfl
@[simp] theorem State.modCarousel_life (k : Nat) (f : Carousel → Carousel) (s : State) : (s.modCarousel k f).life = s.life := rfl
@[simp] theorem State.modCarousel_holds (k : Nat) (f : Carousel → Carousel) (s : State) : (s.modCarousel k f).holds = s.holds := rfl
@[simp] theorem State.modCarousel_watch (k : Nat) (f : Carousel → Carousel) (s : State) : (s.modCarousel k f).watch = s.watch := rfl
@[simp] theorem State.modCarousel_journal (k : Nat) (f : Carousel → Carousel) (s : State) :
    (s.modCarousel k f).journal = s.journal := rfl
@[simp] theorem State.modCarousel_figure (k : Nat) (f : Carousel → Carousel) (s : State) :
    (s.modCarousel k f).figure = s.figure := rfl
@[simp] theorem State.modCarousel_notices (k : Nat) (f : Carousel → Carousel) (s : State) :
    (s.modCarousel k f).notices = s.notices := rfl
@[simp] theorem State.modCarousel_carousels (k : Nat) (f : Carousel → Carousel) (s : State) :
    (s.modCarousel k f).carousels = modSlot f s.carousels k := rfl
@[simp] theorem State.modCarousel_plays (k : Nat) (f : Carousel → Carousel) (s : State) : (s.modCarousel k f).plays = s.plays := rfl
@[simp] theorem State.modCarousel_panels (k : Nat) (f : Carousel → Carousel) (s : State) :
    (s.modCarousel k f).panels = s.panels := rfl
@[simp] theorem State.modCarousel_links (k : Nat) (f : Carousel → Carousel) (s : State) : (s.modCarousel k f).links = s.links := rfl
@[simp] theorem State.modCarousel_framePeriod (k : Nat) (f : Carousel → Carousel) (s : State) :
    (s.modCarousel k f).framePeriod = s.framePeriod := rfl
@[simp] theorem State.modCarousel_ports (k : Nat) (f : Carousel → Carousel) (s : State) : (s.modCarousel k f).ports = s.ports := rfl
@[simp] theorem State.modCarousel_queues (k : Nat) (f : Carousel → Carousel) (s : State) :
    (s.modCarousel k f).queues = s.queues := rfl
@[simp] theorem State.modCarousel_pending (k : Nat) (f : Carousel → Carousel) (s : State) :
    (s.modCarousel k f).pending = s.pending := rfl
@[simp] theorem State.modCarousel_outbox (k : Nat) (f : Carousel → Carousel) (s : State) :
    (s.modCarousel k f).outbox = s.outbox := rfl
@[simp] theorem State.modCarousel_journalBox (k : Nat) (f : Carousel → Carousel) (s : State) :
    (s.modCarousel k f).journalBox = s.journalBox := rfl
@[simp] theorem State.modCarousel_choice (k : Nat) (f : Carousel → Carousel) (s : State) :
    (s.modCarousel k f).choice = s.choice := rfl
@[simp] theorem State.modCarousel_read_showing? (k : Nat) (f : Carousel → Carousel) (s : State) (i : Nat) :
    (s.modCarousel k f).showing? i = s.showing? i := rfl
@[simp] theorem State.modCarousel_read_hold? (k : Nat) (f : Carousel → Carousel) (s : State) (i : Nat) :
    (s.modCarousel k f).hold? i = s.hold? i := rfl
@[simp] theorem State.modCarousel_read_notice? (k : Nat) (f : Carousel → Carousel) (s : State) (i : Nat) :
    (s.modCarousel k f).notice? i = s.notice? i := rfl
@[simp] theorem State.modCarousel_read_auditorium (k : Nat) (f : Carousel → Carousel) (s : State) (i : Nat) :
    (s.modCarousel k f).auditorium i = s.auditorium i := rfl
@[simp] theorem State.modCarousel_read_feature? (k : Nat) (f : Carousel → Carousel) (s : State) (i : Nat) :
    (s.modCarousel k f).feature? i = s.feature? i := rfl
@[simp] theorem State.modCarousel_read_text (k : Nat) (f : Carousel → Carousel) (s : State) (i : Nat) :
    (s.modCarousel k f).text i = s.text i := rfl
@[simp] theorem State.modCarousel_read_play? (k : Nat) (f : Carousel → Carousel) (s : State) (i : Nat) :
    (s.modCarousel k f).play? i = s.play? i := rfl
@[simp] theorem State.modCarousel_read_panel (k : Nat) (f : Carousel → Carousel) (s : State) (i : Nat) :
    (s.modCarousel k f).panel i = s.panel i := rfl
@[simp] theorem State.modCarousel_read_link (k : Nat) (f : Carousel → Carousel) (s : State) (i : Nat) :
    (s.modCarousel k f).link i = s.link i := rfl
@[simp] theorem State.modCarousel_read_takeover (k : Nat) (f : Carousel → Carousel) (s : State) (i : Nat) :
    (s.modCarousel k f).takeover i = s.takeover i := rfl
@[simp] theorem State.modCarousel_read_port (k : Nat) (f : Carousel → Carousel) (s : State) (i : Port) :
    (s.modCarousel k f).port i = s.port i := rfl
@[simp] theorem State.modCarousel_read_queue (k : Nat) (f : Carousel → Carousel) (s : State) (i : Port) :
    (s.modCarousel k f).queue i = s.queue i := rfl

/-! ### setPlay -/

@[simp] theorem State.setPlay_rstn (p : Nat) (r : Option Play) (s : State) : (s.setPlay p r).rstn = s.rstn := rfl
@[simp] theorem State.setPlay_deferred (p : Nat) (r : Option Play) (s : State) : (s.setPlay p r).deferred = s.deferred := rfl
@[simp] theorem State.setPlay_cal (p : Nat) (r : Option Play) (s : State) : (s.setPlay p r).cal = s.cal := rfl
@[simp] theorem State.setPlay_core (p : Nat) (r : Option Play) (s : State) : (s.setPlay p r).core = s.core := rfl
@[simp] theorem State.setPlay_catalogue (p : Nat) (r : Option Play) (s : State) : (s.setPlay p r).catalogue = s.catalogue := rfl
@[simp] theorem State.setPlay_showings (p : Nat) (r : Option Play) (s : State) : (s.setPlay p r).showings = s.showings := rfl
@[simp] theorem State.setPlay_life (p : Nat) (r : Option Play) (s : State) : (s.setPlay p r).life = s.life := rfl
@[simp] theorem State.setPlay_holds (p : Nat) (r : Option Play) (s : State) : (s.setPlay p r).holds = s.holds := rfl
@[simp] theorem State.setPlay_watch (p : Nat) (r : Option Play) (s : State) : (s.setPlay p r).watch = s.watch := rfl
@[simp] theorem State.setPlay_journal (p : Nat) (r : Option Play) (s : State) : (s.setPlay p r).journal = s.journal := rfl
@[simp] theorem State.setPlay_figure (p : Nat) (r : Option Play) (s : State) : (s.setPlay p r).figure = s.figure := rfl
@[simp] theorem State.setPlay_notices (p : Nat) (r : Option Play) (s : State) : (s.setPlay p r).notices = s.notices := rfl
@[simp] theorem State.setPlay_carousels (p : Nat) (r : Option Play) (s : State) : (s.setPlay p r).carousels = s.carousels := rfl
@[simp] theorem State.setPlay_plays (p : Nat) (r : Option Play) (s : State) :
    (s.setPlay p r).plays = modSlot (fun _ => r) s.plays p := rfl
@[simp] theorem State.setPlay_panels (p : Nat) (r : Option Play) (s : State) : (s.setPlay p r).panels = s.panels := rfl
@[simp] theorem State.setPlay_links (p : Nat) (r : Option Play) (s : State) : (s.setPlay p r).links = s.links := rfl
@[simp] theorem State.setPlay_framePeriod (p : Nat) (r : Option Play) (s : State) :
    (s.setPlay p r).framePeriod = s.framePeriod := rfl
@[simp] theorem State.setPlay_ports (p : Nat) (r : Option Play) (s : State) : (s.setPlay p r).ports = s.ports := rfl
@[simp] theorem State.setPlay_queues (p : Nat) (r : Option Play) (s : State) : (s.setPlay p r).queues = s.queues := rfl
@[simp] theorem State.setPlay_pending (p : Nat) (r : Option Play) (s : State) : (s.setPlay p r).pending = s.pending := rfl
@[simp] theorem State.setPlay_outbox (p : Nat) (r : Option Play) (s : State) : (s.setPlay p r).outbox = s.outbox := rfl
@[simp] theorem State.setPlay_journalBox (p : Nat) (r : Option Play) (s : State) : (s.setPlay p r).journalBox = s.journalBox := rfl
@[simp] theorem State.setPlay_choice (p : Nat) (r : Option Play) (s : State) : (s.setPlay p r).choice = s.choice := rfl
@[simp] theorem State.setPlay_read_showing? (p : Nat) (r : Option Play) (s : State) (i : Nat) :
    (s.setPlay p r).showing? i = s.showing? i := rfl
@[simp] theorem State.setPlay_read_hold? (p : Nat) (r : Option Play) (s : State) (i : Nat) :
    (s.setPlay p r).hold? i = s.hold? i := rfl
@[simp] theorem State.setPlay_read_notice? (p : Nat) (r : Option Play) (s : State) (i : Nat) :
    (s.setPlay p r).notice? i = s.notice? i := rfl
@[simp] theorem State.setPlay_read_auditorium (p : Nat) (r : Option Play) (s : State) (i : Nat) :
    (s.setPlay p r).auditorium i = s.auditorium i := rfl
@[simp] theorem State.setPlay_read_feature? (p : Nat) (r : Option Play) (s : State) (i : Nat) :
    (s.setPlay p r).feature? i = s.feature? i := rfl
@[simp] theorem State.setPlay_read_text (p : Nat) (r : Option Play) (s : State) (i : Nat) : (s.setPlay p r).text i = s.text i := rfl
@[simp] theorem State.setPlay_read_carousel (p : Nat) (r : Option Play) (s : State) (i : Nat) :
    (s.setPlay p r).carousel i = s.carousel i := rfl
@[simp] theorem State.setPlay_read_panel (p : Nat) (r : Option Play) (s : State) (i : Nat) :
    (s.setPlay p r).panel i = s.panel i := rfl
@[simp] theorem State.setPlay_read_link (p : Nat) (r : Option Play) (s : State) (i : Nat) : (s.setPlay p r).link i = s.link i := rfl
@[simp] theorem State.setPlay_read_takeover (p : Nat) (r : Option Play) (s : State) (i : Nat) :
    (s.setPlay p r).takeover i = s.takeover i := rfl
@[simp] theorem State.setPlay_read_port (p : Nat) (r : Option Play) (s : State) (i : Port) :
    (s.setPlay p r).port i = s.port i := rfl
@[simp] theorem State.setPlay_read_queue (p : Nat) (r : Option Play) (s : State) (i : Port) :
    (s.setPlay p r).queue i = s.queue i := rfl

/-! ### modPanel -/

@[simp] theorem State.modPanel_rstn (p : Nat) (f : Panel → Panel) (s : State) : (s.modPanel p f).rstn = s.rstn := rfl
@[simp] theorem State.modPanel_deferred (p : Nat) (f : Panel → Panel) (s : State) : (s.modPanel p f).deferred = s.deferred := rfl
@[simp] theorem State.modPanel_cal (p : Nat) (f : Panel → Panel) (s : State) : (s.modPanel p f).cal = s.cal := rfl
@[simp] theorem State.modPanel_core (p : Nat) (f : Panel → Panel) (s : State) : (s.modPanel p f).core = s.core := rfl
@[simp] theorem State.modPanel_catalogue (p : Nat) (f : Panel → Panel) (s : State) : (s.modPanel p f).catalogue = s.catalogue := rfl
@[simp] theorem State.modPanel_showings (p : Nat) (f : Panel → Panel) (s : State) : (s.modPanel p f).showings = s.showings := rfl
@[simp] theorem State.modPanel_life (p : Nat) (f : Panel → Panel) (s : State) : (s.modPanel p f).life = s.life := rfl
@[simp] theorem State.modPanel_holds (p : Nat) (f : Panel → Panel) (s : State) : (s.modPanel p f).holds = s.holds := rfl
@[simp] theorem State.modPanel_watch (p : Nat) (f : Panel → Panel) (s : State) : (s.modPanel p f).watch = s.watch := rfl
@[simp] theorem State.modPanel_journal (p : Nat) (f : Panel → Panel) (s : State) : (s.modPanel p f).journal = s.journal := rfl
@[simp] theorem State.modPanel_figure (p : Nat) (f : Panel → Panel) (s : State) : (s.modPanel p f).figure = s.figure := rfl
@[simp] theorem State.modPanel_notices (p : Nat) (f : Panel → Panel) (s : State) : (s.modPanel p f).notices = s.notices := rfl
@[simp] theorem State.modPanel_carousels (p : Nat) (f : Panel → Panel) (s : State) : (s.modPanel p f).carousels = s.carousels := rfl
@[simp] theorem State.modPanel_plays (p : Nat) (f : Panel → Panel) (s : State) : (s.modPanel p f).plays = s.plays := rfl
@[simp] theorem State.modPanel_panels (p : Nat) (f : Panel → Panel) (s : State) :
    (s.modPanel p f).panels = modSlot f s.panels p := rfl
@[simp] theorem State.modPanel_links (p : Nat) (f : Panel → Panel) (s : State) : (s.modPanel p f).links = s.links := rfl
@[simp] theorem State.modPanel_framePeriod (p : Nat) (f : Panel → Panel) (s : State) :
    (s.modPanel p f).framePeriod = s.framePeriod := rfl
@[simp] theorem State.modPanel_ports (p : Nat) (f : Panel → Panel) (s : State) : (s.modPanel p f).ports = s.ports := rfl
@[simp] theorem State.modPanel_queues (p : Nat) (f : Panel → Panel) (s : State) : (s.modPanel p f).queues = s.queues := rfl
@[simp] theorem State.modPanel_pending (p : Nat) (f : Panel → Panel) (s : State) : (s.modPanel p f).pending = s.pending := rfl
@[simp] theorem State.modPanel_outbox (p : Nat) (f : Panel → Panel) (s : State) : (s.modPanel p f).outbox = s.outbox := rfl
@[simp] theorem State.modPanel_journalBox (p : Nat) (f : Panel → Panel) (s : State) :
    (s.modPanel p f).journalBox = s.journalBox := rfl
@[simp] theorem State.modPanel_choice (p : Nat) (f : Panel → Panel) (s : State) : (s.modPanel p f).choice = s.choice := rfl
@[simp] theorem State.modPanel_read_showing? (p : Nat) (f : Panel → Panel) (s : State) (i : Nat) :
    (s.modPanel p f).showing? i = s.showing? i := rfl
@[simp] theorem State.modPanel_read_hold? (p : Nat) (f : Panel → Panel) (s : State) (i : Nat) :
    (s.modPanel p f).hold? i = s.hold? i := rfl
@[simp] theorem State.modPanel_read_notice? (p : Nat) (f : Panel → Panel) (s : State) (i : Nat) :
    (s.modPanel p f).notice? i = s.notice? i := rfl
@[simp] theorem State.modPanel_read_auditorium (p : Nat) (f : Panel → Panel) (s : State) (i : Nat) :
    (s.modPanel p f).auditorium i = s.auditorium i := rfl
@[simp] theorem State.modPanel_read_feature? (p : Nat) (f : Panel → Panel) (s : State) (i : Nat) :
    (s.modPanel p f).feature? i = s.feature? i := rfl
@[simp] theorem State.modPanel_read_text (p : Nat) (f : Panel → Panel) (s : State) (i : Nat) :
    (s.modPanel p f).text i = s.text i := rfl
@[simp] theorem State.modPanel_read_carousel (p : Nat) (f : Panel → Panel) (s : State) (i : Nat) :
    (s.modPanel p f).carousel i = s.carousel i := rfl
@[simp] theorem State.modPanel_read_play? (p : Nat) (f : Panel → Panel) (s : State) (i : Nat) :
    (s.modPanel p f).play? i = s.play? i := rfl
@[simp] theorem State.modPanel_read_link (p : Nat) (f : Panel → Panel) (s : State) (i : Nat) :
    (s.modPanel p f).link i = s.link i := rfl
@[simp] theorem State.modPanel_read_takeover (p : Nat) (f : Panel → Panel) (s : State) (i : Nat) :
    (s.modPanel p f).takeover i = s.takeover i := rfl
@[simp] theorem State.modPanel_read_port (p : Nat) (f : Panel → Panel) (s : State) (i : Port) :
    (s.modPanel p f).port i = s.port i := rfl
@[simp] theorem State.modPanel_read_queue (p : Nat) (f : Panel → Panel) (s : State) (i : Port) :
    (s.modPanel p f).queue i = s.queue i := rfl

/-! ### modLink -/

@[simp] theorem State.modLink_rstn (p : Nat) (f : LinkContext → LinkContext) (s : State) : (s.modLink p f).rstn = s.rstn := rfl
@[simp] theorem State.modLink_deferred (p : Nat) (f : LinkContext → LinkContext) (s : State) :
    (s.modLink p f).deferred = s.deferred := rfl
@[simp] theorem State.modLink_cal (p : Nat) (f : LinkContext → LinkContext) (s : State) : (s.modLink p f).cal = s.cal := rfl
@[simp] theorem State.modLink_core (p : Nat) (f : LinkContext → LinkContext) (s : State) : (s.modLink p f).core = s.core := rfl
@[simp] theorem State.modLink_catalogue (p : Nat) (f : LinkContext → LinkContext) (s : State) :
    (s.modLink p f).catalogue = s.catalogue := rfl
@[simp] theorem State.modLink_showings (p : Nat) (f : LinkContext → LinkContext) (s : State) :
    (s.modLink p f).showings = s.showings := rfl
@[simp] theorem State.modLink_life (p : Nat) (f : LinkContext → LinkContext) (s : State) : (s.modLink p f).life = s.life := rfl
@[simp] theorem State.modLink_holds (p : Nat) (f : LinkContext → LinkContext) (s : State) : (s.modLink p f).holds = s.holds := rfl
@[simp] theorem State.modLink_watch (p : Nat) (f : LinkContext → LinkContext) (s : State) : (s.modLink p f).watch = s.watch := rfl
@[simp] theorem State.modLink_journal (p : Nat) (f : LinkContext → LinkContext) (s : State) :
    (s.modLink p f).journal = s.journal := rfl
@[simp] theorem State.modLink_figure (p : Nat) (f : LinkContext → LinkContext) (s : State) :
    (s.modLink p f).figure = s.figure := rfl
@[simp] theorem State.modLink_notices (p : Nat) (f : LinkContext → LinkContext) (s : State) :
    (s.modLink p f).notices = s.notices := rfl
@[simp] theorem State.modLink_carousels (p : Nat) (f : LinkContext → LinkContext) (s : State) :
    (s.modLink p f).carousels = s.carousels := rfl
@[simp] theorem State.modLink_plays (p : Nat) (f : LinkContext → LinkContext) (s : State) : (s.modLink p f).plays = s.plays := rfl
@[simp] theorem State.modLink_panels (p : Nat) (f : LinkContext → LinkContext) (s : State) :
    (s.modLink p f).panels = s.panels := rfl
@[simp] theorem State.modLink_links (p : Nat) (f : LinkContext → LinkContext) (s : State) :
    (s.modLink p f).links = modSlot f s.links p := rfl
@[simp] theorem State.modLink_framePeriod (p : Nat) (f : LinkContext → LinkContext) (s : State) :
    (s.modLink p f).framePeriod = s.framePeriod := rfl
@[simp] theorem State.modLink_ports (p : Nat) (f : LinkContext → LinkContext) (s : State) : (s.modLink p f).ports = s.ports := rfl
@[simp] theorem State.modLink_queues (p : Nat) (f : LinkContext → LinkContext) (s : State) :
    (s.modLink p f).queues = s.queues := rfl
@[simp] theorem State.modLink_pending (p : Nat) (f : LinkContext → LinkContext) (s : State) :
    (s.modLink p f).pending = s.pending := rfl
@[simp] theorem State.modLink_outbox (p : Nat) (f : LinkContext → LinkContext) (s : State) :
    (s.modLink p f).outbox = s.outbox := rfl
@[simp] theorem State.modLink_journalBox (p : Nat) (f : LinkContext → LinkContext) (s : State) :
    (s.modLink p f).journalBox = s.journalBox := rfl
@[simp] theorem State.modLink_choice (p : Nat) (f : LinkContext → LinkContext) (s : State) :
    (s.modLink p f).choice = s.choice := rfl
@[simp] theorem State.modLink_read_showing? (p : Nat) (f : LinkContext → LinkContext) (s : State) (i : Nat) :
    (s.modLink p f).showing? i = s.showing? i := rfl
@[simp] theorem State.modLink_read_hold? (p : Nat) (f : LinkContext → LinkContext) (s : State) (i : Nat) :
    (s.modLink p f).hold? i = s.hold? i := rfl
@[simp] theorem State.modLink_read_notice? (p : Nat) (f : LinkContext → LinkContext) (s : State) (i : Nat) :
    (s.modLink p f).notice? i = s.notice? i := rfl
@[simp] theorem State.modLink_read_auditorium (p : Nat) (f : LinkContext → LinkContext) (s : State) (i : Nat) :
    (s.modLink p f).auditorium i = s.auditorium i := rfl
@[simp] theorem State.modLink_read_feature? (p : Nat) (f : LinkContext → LinkContext) (s : State) (i : Nat) :
    (s.modLink p f).feature? i = s.feature? i := rfl
@[simp] theorem State.modLink_read_text (p : Nat) (f : LinkContext → LinkContext) (s : State) (i : Nat) :
    (s.modLink p f).text i = s.text i := rfl
@[simp] theorem State.modLink_read_carousel (p : Nat) (f : LinkContext → LinkContext) (s : State) (i : Nat) :
    (s.modLink p f).carousel i = s.carousel i := rfl
@[simp] theorem State.modLink_read_play? (p : Nat) (f : LinkContext → LinkContext) (s : State) (i : Nat) :
    (s.modLink p f).play? i = s.play? i := rfl
@[simp] theorem State.modLink_read_panel (p : Nat) (f : LinkContext → LinkContext) (s : State) (i : Nat) :
    (s.modLink p f).panel i = s.panel i := rfl
@[simp] theorem State.modLink_read_takeover (p : Nat) (f : LinkContext → LinkContext) (s : State) (i : Nat) :
    (s.modLink p f).takeover i = s.takeover i := rfl
@[simp] theorem State.modLink_read_port (p : Nat) (f : LinkContext → LinkContext) (s : State) (i : Port) :
    (s.modLink p f).port i = s.port i := rfl
@[simp] theorem State.modLink_read_queue (p : Nat) (f : LinkContext → LinkContext) (s : State) (i : Port) :
    (s.modLink p f).queue i = s.queue i := rfl

/-! ### setAuditorium -/

@[simp] theorem State.setAuditorium_rstn (n : Nat) (a : Auditorium) (s : State) : (s.setAuditorium n a).rstn = s.rstn := rfl
@[simp] theorem State.setAuditorium_deferred (n : Nat) (a : Auditorium) (s : State) :
    (s.setAuditorium n a).deferred = s.deferred := rfl
@[simp] theorem State.setAuditorium_cal (n : Nat) (a : Auditorium) (s : State) : (s.setAuditorium n a).cal = s.cal := rfl
@[simp] theorem State.setAuditorium_core (n : Nat) (a : Auditorium) (s : State) : (s.setAuditorium n a).core = s.core := rfl
@[simp] theorem State.setAuditorium_catalogue (n : Nat) (a : Auditorium) (s : State) :
    (s.setAuditorium n a).catalogue = { s.catalogue with auditoriums := modSlot (fun _ => a) s.catalogue.auditoriums n } := rfl
@[simp] theorem State.setAuditorium_showings (n : Nat) (a : Auditorium) (s : State) :
    (s.setAuditorium n a).showings = s.showings := rfl
@[simp] theorem State.setAuditorium_life (n : Nat) (a : Auditorium) (s : State) : (s.setAuditorium n a).life = s.life := rfl
@[simp] theorem State.setAuditorium_holds (n : Nat) (a : Auditorium) (s : State) : (s.setAuditorium n a).holds = s.holds := rfl
@[simp] theorem State.setAuditorium_watch (n : Nat) (a : Auditorium) (s : State) : (s.setAuditorium n a).watch = s.watch := rfl
@[simp] theorem State.setAuditorium_journal (n : Nat) (a : Auditorium) (s : State) :
    (s.setAuditorium n a).journal = s.journal := rfl
@[simp] theorem State.setAuditorium_figure (n : Nat) (a : Auditorium) (s : State) : (s.setAuditorium n a).figure = s.figure := rfl
@[simp] theorem State.setAuditorium_notices (n : Nat) (a : Auditorium) (s : State) :
    (s.setAuditorium n a).notices = s.notices := rfl
@[simp] theorem State.setAuditorium_carousels (n : Nat) (a : Auditorium) (s : State) :
    (s.setAuditorium n a).carousels = s.carousels := rfl
@[simp] theorem State.setAuditorium_plays (n : Nat) (a : Auditorium) (s : State) : (s.setAuditorium n a).plays = s.plays := rfl
@[simp] theorem State.setAuditorium_panels (n : Nat) (a : Auditorium) (s : State) : (s.setAuditorium n a).panels = s.panels := rfl
@[simp] theorem State.setAuditorium_links (n : Nat) (a : Auditorium) (s : State) : (s.setAuditorium n a).links = s.links := rfl
@[simp] theorem State.setAuditorium_framePeriod (n : Nat) (a : Auditorium) (s : State) :
    (s.setAuditorium n a).framePeriod = s.framePeriod := rfl
@[simp] theorem State.setAuditorium_ports (n : Nat) (a : Auditorium) (s : State) : (s.setAuditorium n a).ports = s.ports := rfl
@[simp] theorem State.setAuditorium_queues (n : Nat) (a : Auditorium) (s : State) : (s.setAuditorium n a).queues = s.queues := rfl
@[simp] theorem State.setAuditorium_pending (n : Nat) (a : Auditorium) (s : State) :
    (s.setAuditorium n a).pending = s.pending := rfl
@[simp] theorem State.setAuditorium_outbox (n : Nat) (a : Auditorium) (s : State) : (s.setAuditorium n a).outbox = s.outbox := rfl
@[simp] theorem State.setAuditorium_journalBox (n : Nat) (a : Auditorium) (s : State) :
    (s.setAuditorium n a).journalBox = s.journalBox := rfl
@[simp] theorem State.setAuditorium_choice (n : Nat) (a : Auditorium) (s : State) : (s.setAuditorium n a).choice = s.choice := rfl
@[simp] theorem State.setAuditorium_read_showing? (n : Nat) (a : Auditorium) (s : State) (i : Nat) :
    (s.setAuditorium n a).showing? i = s.showing? i := rfl
@[simp] theorem State.setAuditorium_read_hold? (n : Nat) (a : Auditorium) (s : State) (i : Nat) :
    (s.setAuditorium n a).hold? i = s.hold? i := rfl
@[simp] theorem State.setAuditorium_read_notice? (n : Nat) (a : Auditorium) (s : State) (i : Nat) :
    (s.setAuditorium n a).notice? i = s.notice? i := rfl
@[simp] theorem State.setAuditorium_read_carousel (n : Nat) (a : Auditorium) (s : State) (i : Nat) :
    (s.setAuditorium n a).carousel i = s.carousel i := rfl
@[simp] theorem State.setAuditorium_read_play? (n : Nat) (a : Auditorium) (s : State) (i : Nat) :
    (s.setAuditorium n a).play? i = s.play? i := rfl
@[simp] theorem State.setAuditorium_read_panel (n : Nat) (a : Auditorium) (s : State) (i : Nat) :
    (s.setAuditorium n a).panel i = s.panel i := rfl
@[simp] theorem State.setAuditorium_read_link (n : Nat) (a : Auditorium) (s : State) (i : Nat) :
    (s.setAuditorium n a).link i = s.link i := rfl
@[simp] theorem State.setAuditorium_read_takeover (n : Nat) (a : Auditorium) (s : State) (i : Nat) :
    (s.setAuditorium n a).takeover i = s.takeover i := rfl
@[simp] theorem State.setAuditorium_read_port (n : Nat) (a : Auditorium) (s : State) (i : Port) :
    (s.setAuditorium n a).port i = s.port i := rfl
@[simp] theorem State.setAuditorium_read_queue (n : Nat) (a : Auditorium) (s : State) (i : Port) :
    (s.setAuditorium n a).queue i = s.queue i := rfl

/-! ### setFeature -/

@[simp] theorem State.setFeature_rstn (n : Nat) (f : Option Feature) (s : State) : (s.setFeature n f).rstn = s.rstn := rfl
@[simp] theorem State.setFeature_deferred (n : Nat) (f : Option Feature) (s : State) :
    (s.setFeature n f).deferred = s.deferred := rfl
@[simp] theorem State.setFeature_cal (n : Nat) (f : Option Feature) (s : State) : (s.setFeature n f).cal = s.cal := rfl
@[simp] theorem State.setFeature_core (n : Nat) (f : Option Feature) (s : State) : (s.setFeature n f).core = s.core := rfl
@[simp] theorem State.setFeature_catalogue (n : Nat) (f : Option Feature) (s : State) :
    (s.setFeature n f).catalogue = { s.catalogue with features := modSlot (fun _ => f) s.catalogue.features n } := rfl
@[simp] theorem State.setFeature_showings (n : Nat) (f : Option Feature) (s : State) :
    (s.setFeature n f).showings = s.showings := rfl
@[simp] theorem State.setFeature_life (n : Nat) (f : Option Feature) (s : State) : (s.setFeature n f).life = s.life := rfl
@[simp] theorem State.setFeature_holds (n : Nat) (f : Option Feature) (s : State) : (s.setFeature n f).holds = s.holds := rfl
@[simp] theorem State.setFeature_watch (n : Nat) (f : Option Feature) (s : State) : (s.setFeature n f).watch = s.watch := rfl
@[simp] theorem State.setFeature_journal (n : Nat) (f : Option Feature) (s : State) : (s.setFeature n f).journal = s.journal := rfl
@[simp] theorem State.setFeature_figure (n : Nat) (f : Option Feature) (s : State) : (s.setFeature n f).figure = s.figure := rfl
@[simp] theorem State.setFeature_notices (n : Nat) (f : Option Feature) (s : State) : (s.setFeature n f).notices = s.notices := rfl
@[simp] theorem State.setFeature_carousels (n : Nat) (f : Option Feature) (s : State) :
    (s.setFeature n f).carousels = s.carousels := rfl
@[simp] theorem State.setFeature_plays (n : Nat) (f : Option Feature) (s : State) : (s.setFeature n f).plays = s.plays := rfl
@[simp] theorem State.setFeature_panels (n : Nat) (f : Option Feature) (s : State) : (s.setFeature n f).panels = s.panels := rfl
@[simp] theorem State.setFeature_links (n : Nat) (f : Option Feature) (s : State) : (s.setFeature n f).links = s.links := rfl
@[simp] theorem State.setFeature_framePeriod (n : Nat) (f : Option Feature) (s : State) :
    (s.setFeature n f).framePeriod = s.framePeriod := rfl
@[simp] theorem State.setFeature_ports (n : Nat) (f : Option Feature) (s : State) : (s.setFeature n f).ports = s.ports := rfl
@[simp] theorem State.setFeature_queues (n : Nat) (f : Option Feature) (s : State) : (s.setFeature n f).queues = s.queues := rfl
@[simp] theorem State.setFeature_pending (n : Nat) (f : Option Feature) (s : State) : (s.setFeature n f).pending = s.pending := rfl
@[simp] theorem State.setFeature_outbox (n : Nat) (f : Option Feature) (s : State) : (s.setFeature n f).outbox = s.outbox := rfl
@[simp] theorem State.setFeature_journalBox (n : Nat) (f : Option Feature) (s : State) :
    (s.setFeature n f).journalBox = s.journalBox := rfl
@[simp] theorem State.setFeature_choice (n : Nat) (f : Option Feature) (s : State) : (s.setFeature n f).choice = s.choice := rfl
@[simp] theorem State.setFeature_read_showing? (n : Nat) (f : Option Feature) (s : State) (i : Nat) :
    (s.setFeature n f).showing? i = s.showing? i := rfl
@[simp] theorem State.setFeature_read_hold? (n : Nat) (f : Option Feature) (s : State) (i : Nat) :
    (s.setFeature n f).hold? i = s.hold? i := rfl
@[simp] theorem State.setFeature_read_notice? (n : Nat) (f : Option Feature) (s : State) (i : Nat) :
    (s.setFeature n f).notice? i = s.notice? i := rfl
@[simp] theorem State.setFeature_read_carousel (n : Nat) (f : Option Feature) (s : State) (i : Nat) :
    (s.setFeature n f).carousel i = s.carousel i := rfl
@[simp] theorem State.setFeature_read_play? (n : Nat) (f : Option Feature) (s : State) (i : Nat) :
    (s.setFeature n f).play? i = s.play? i := rfl
@[simp] theorem State.setFeature_read_panel (n : Nat) (f : Option Feature) (s : State) (i : Nat) :
    (s.setFeature n f).panel i = s.panel i := rfl
@[simp] theorem State.setFeature_read_link (n : Nat) (f : Option Feature) (s : State) (i : Nat) :
    (s.setFeature n f).link i = s.link i := rfl
@[simp] theorem State.setFeature_read_takeover (n : Nat) (f : Option Feature) (s : State) (i : Nat) :
    (s.setFeature n f).takeover i = s.takeover i := rfl
@[simp] theorem State.setFeature_read_port (n : Nat) (f : Option Feature) (s : State) (i : Port) :
    (s.setFeature n f).port i = s.port i := rfl
@[simp] theorem State.setFeature_read_queue (n : Nat) (f : Option Feature) (s : State) (i : Port) :
    (s.setFeature n f).queue i = s.queue i := rfl

/-! ### setText -/

@[simp] theorem State.setText_rstn (n : Nat) (e : TextEntry) (s : State) : (s.setText n e).rstn = s.rstn := rfl
@[simp] theorem State.setText_deferred (n : Nat) (e : TextEntry) (s : State) : (s.setText n e).deferred = s.deferred := rfl
@[simp] theorem State.setText_cal (n : Nat) (e : TextEntry) (s : State) : (s.setText n e).cal = s.cal := rfl
@[simp] theorem State.setText_core (n : Nat) (e : TextEntry) (s : State) : (s.setText n e).core = s.core := rfl
@[simp] theorem State.setText_catalogue (n : Nat) (e : TextEntry) (s : State) :
    (s.setText n e).catalogue = { s.catalogue with texts := modSlot (fun _ => e) s.catalogue.texts n } := rfl
@[simp] theorem State.setText_showings (n : Nat) (e : TextEntry) (s : State) : (s.setText n e).showings = s.showings := rfl
@[simp] theorem State.setText_life (n : Nat) (e : TextEntry) (s : State) : (s.setText n e).life = s.life := rfl
@[simp] theorem State.setText_holds (n : Nat) (e : TextEntry) (s : State) : (s.setText n e).holds = s.holds := rfl
@[simp] theorem State.setText_watch (n : Nat) (e : TextEntry) (s : State) : (s.setText n e).watch = s.watch := rfl
@[simp] theorem State.setText_journal (n : Nat) (e : TextEntry) (s : State) : (s.setText n e).journal = s.journal := rfl
@[simp] theorem State.setText_figure (n : Nat) (e : TextEntry) (s : State) : (s.setText n e).figure = s.figure := rfl
@[simp] theorem State.setText_notices (n : Nat) (e : TextEntry) (s : State) : (s.setText n e).notices = s.notices := rfl
@[simp] theorem State.setText_carousels (n : Nat) (e : TextEntry) (s : State) : (s.setText n e).carousels = s.carousels := rfl
@[simp] theorem State.setText_plays (n : Nat) (e : TextEntry) (s : State) : (s.setText n e).plays = s.plays := rfl
@[simp] theorem State.setText_panels (n : Nat) (e : TextEntry) (s : State) : (s.setText n e).panels = s.panels := rfl
@[simp] theorem State.setText_links (n : Nat) (e : TextEntry) (s : State) : (s.setText n e).links = s.links := rfl
@[simp] theorem State.setText_framePeriod (n : Nat) (e : TextEntry) (s : State) : (s.setText n e).framePeriod = s.framePeriod := rfl
@[simp] theorem State.setText_ports (n : Nat) (e : TextEntry) (s : State) : (s.setText n e).ports = s.ports := rfl
@[simp] theorem State.setText_queues (n : Nat) (e : TextEntry) (s : State) : (s.setText n e).queues = s.queues := rfl
@[simp] theorem State.setText_pending (n : Nat) (e : TextEntry) (s : State) : (s.setText n e).pending = s.pending := rfl
@[simp] theorem State.setText_outbox (n : Nat) (e : TextEntry) (s : State) : (s.setText n e).outbox = s.outbox := rfl
@[simp] theorem State.setText_journalBox (n : Nat) (e : TextEntry) (s : State) : (s.setText n e).journalBox = s.journalBox := rfl
@[simp] theorem State.setText_choice (n : Nat) (e : TextEntry) (s : State) : (s.setText n e).choice = s.choice := rfl
@[simp] theorem State.setText_read_showing? (n : Nat) (e : TextEntry) (s : State) (i : Nat) :
    (s.setText n e).showing? i = s.showing? i := rfl
@[simp] theorem State.setText_read_hold? (n : Nat) (e : TextEntry) (s : State) (i : Nat) :
    (s.setText n e).hold? i = s.hold? i := rfl
@[simp] theorem State.setText_read_notice? (n : Nat) (e : TextEntry) (s : State) (i : Nat) :
    (s.setText n e).notice? i = s.notice? i := rfl
@[simp] theorem State.setText_read_carousel (n : Nat) (e : TextEntry) (s : State) (i : Nat) :
    (s.setText n e).carousel i = s.carousel i := rfl
@[simp] theorem State.setText_read_play? (n : Nat) (e : TextEntry) (s : State) (i : Nat) :
    (s.setText n e).play? i = s.play? i := rfl
@[simp] theorem State.setText_read_panel (n : Nat) (e : TextEntry) (s : State) (i : Nat) :
    (s.setText n e).panel i = s.panel i := rfl
@[simp] theorem State.setText_read_link (n : Nat) (e : TextEntry) (s : State) (i : Nat) : (s.setText n e).link i = s.link i := rfl
@[simp] theorem State.setText_read_takeover (n : Nat) (e : TextEntry) (s : State) (i : Nat) :
    (s.setText n e).takeover i = s.takeover i := rfl
@[simp] theorem State.setText_read_port (n : Nat) (e : TextEntry) (s : State) (i : Port) : (s.setText n e).port i = s.port i := rfl
@[simp] theorem State.setText_read_queue (n : Nat) (e : TextEntry) (s : State) (i : Port) :
    (s.setText n e).queue i = s.queue i := rfl

/-! ### modPort -/

@[simp] theorem State.modPort_rstn (p : Port) (f : PortState → PortState) (s : State) : (s.modPort p f).rstn = s.rstn := rfl
@[simp] theorem State.modPort_deferred (p : Port) (f : PortState → PortState) (s : State) :
    (s.modPort p f).deferred = s.deferred := rfl
@[simp] theorem State.modPort_cal (p : Port) (f : PortState → PortState) (s : State) : (s.modPort p f).cal = s.cal := rfl
@[simp] theorem State.modPort_core (p : Port) (f : PortState → PortState) (s : State) : (s.modPort p f).core = s.core := rfl
@[simp] theorem State.modPort_catalogue (p : Port) (f : PortState → PortState) (s : State) :
    (s.modPort p f).catalogue = s.catalogue := rfl
@[simp] theorem State.modPort_showings (p : Port) (f : PortState → PortState) (s : State) :
    (s.modPort p f).showings = s.showings := rfl
@[simp] theorem State.modPort_life (p : Port) (f : PortState → PortState) (s : State) : (s.modPort p f).life = s.life := rfl
@[simp] theorem State.modPort_holds (p : Port) (f : PortState → PortState) (s : State) : (s.modPort p f).holds = s.holds := rfl
@[simp] theorem State.modPort_watch (p : Port) (f : PortState → PortState) (s : State) : (s.modPort p f).watch = s.watch := rfl
@[simp] theorem State.modPort_journal (p : Port) (f : PortState → PortState) (s : State) :
    (s.modPort p f).journal = s.journal := rfl
@[simp] theorem State.modPort_figure (p : Port) (f : PortState → PortState) (s : State) : (s.modPort p f).figure = s.figure := rfl
@[simp] theorem State.modPort_notices (p : Port) (f : PortState → PortState) (s : State) :
    (s.modPort p f).notices = s.notices := rfl
@[simp] theorem State.modPort_carousels (p : Port) (f : PortState → PortState) (s : State) :
    (s.modPort p f).carousels = s.carousels := rfl
@[simp] theorem State.modPort_plays (p : Port) (f : PortState → PortState) (s : State) : (s.modPort p f).plays = s.plays := rfl
@[simp] theorem State.modPort_panels (p : Port) (f : PortState → PortState) (s : State) : (s.modPort p f).panels = s.panels := rfl
@[simp] theorem State.modPort_links (p : Port) (f : PortState → PortState) (s : State) : (s.modPort p f).links = s.links := rfl
@[simp] theorem State.modPort_framePeriod (p : Port) (f : PortState → PortState) (s : State) :
    (s.modPort p f).framePeriod = s.framePeriod := rfl
@[simp] theorem State.modPort_ports (p : Port) (f : PortState → PortState) (s : State) :
    (s.modPort p f).ports = s.ports.mod f p := rfl
@[simp] theorem State.modPort_queues (p : Port) (f : PortState → PortState) (s : State) : (s.modPort p f).queues = s.queues := rfl
@[simp] theorem State.modPort_pending (p : Port) (f : PortState → PortState) (s : State) :
    (s.modPort p f).pending = s.pending := rfl
@[simp] theorem State.modPort_outbox (p : Port) (f : PortState → PortState) (s : State) : (s.modPort p f).outbox = s.outbox := rfl
@[simp] theorem State.modPort_journalBox (p : Port) (f : PortState → PortState) (s : State) :
    (s.modPort p f).journalBox = s.journalBox := rfl
@[simp] theorem State.modPort_choice (p : Port) (f : PortState → PortState) (s : State) : (s.modPort p f).choice = s.choice := rfl
@[simp] theorem State.modPort_read_showing? (p : Port) (f : PortState → PortState) (s : State) (i : Nat) :
    (s.modPort p f).showing? i = s.showing? i := rfl
@[simp] theorem State.modPort_read_hold? (p : Port) (f : PortState → PortState) (s : State) (i : Nat) :
    (s.modPort p f).hold? i = s.hold? i := rfl
@[simp] theorem State.modPort_read_notice? (p : Port) (f : PortState → PortState) (s : State) (i : Nat) :
    (s.modPort p f).notice? i = s.notice? i := rfl
@[simp] theorem State.modPort_read_auditorium (p : Port) (f : PortState → PortState) (s : State) (i : Nat) :
    (s.modPort p f).auditorium i = s.auditorium i := rfl
@[simp] theorem State.modPort_read_feature? (p : Port) (f : PortState → PortState) (s : State) (i : Nat) :
    (s.modPort p f).feature? i = s.feature? i := rfl
@[simp] theorem State.modPort_read_text (p : Port) (f : PortState → PortState) (s : State) (i : Nat) :
    (s.modPort p f).text i = s.text i := rfl
@[simp] theorem State.modPort_read_carousel (p : Port) (f : PortState → PortState) (s : State) (i : Nat) :
    (s.modPort p f).carousel i = s.carousel i := rfl
@[simp] theorem State.modPort_read_play? (p : Port) (f : PortState → PortState) (s : State) (i : Nat) :
    (s.modPort p f).play? i = s.play? i := rfl
@[simp] theorem State.modPort_read_panel (p : Port) (f : PortState → PortState) (s : State) (i : Nat) :
    (s.modPort p f).panel i = s.panel i := rfl
@[simp] theorem State.modPort_read_link (p : Port) (f : PortState → PortState) (s : State) (i : Nat) :
    (s.modPort p f).link i = s.link i := rfl
@[simp] theorem State.modPort_read_takeover (p : Port) (f : PortState → PortState) (s : State) (i : Nat) :
    (s.modPort p f).takeover i = s.takeover i := rfl
@[simp] theorem State.modPort_read_queue (p : Port) (f : PortState → PortState) (s : State) (i : Port) :
    (s.modPort p f).queue i = s.queue i := rfl

/-! ### modQueue -/

@[simp] theorem State.modQueue_rstn (p : Port) (f : PortQueue → PortQueue) (s : State) : (s.modQueue p f).rstn = s.rstn := rfl
@[simp] theorem State.modQueue_deferred (p : Port) (f : PortQueue → PortQueue) (s : State) :
    (s.modQueue p f).deferred = s.deferred := rfl
@[simp] theorem State.modQueue_cal (p : Port) (f : PortQueue → PortQueue) (s : State) : (s.modQueue p f).cal = s.cal := rfl
@[simp] theorem State.modQueue_core (p : Port) (f : PortQueue → PortQueue) (s : State) : (s.modQueue p f).core = s.core := rfl
@[simp] theorem State.modQueue_catalogue (p : Port) (f : PortQueue → PortQueue) (s : State) :
    (s.modQueue p f).catalogue = s.catalogue := rfl
@[simp] theorem State.modQueue_showings (p : Port) (f : PortQueue → PortQueue) (s : State) :
    (s.modQueue p f).showings = s.showings := rfl
@[simp] theorem State.modQueue_life (p : Port) (f : PortQueue → PortQueue) (s : State) : (s.modQueue p f).life = s.life := rfl
@[simp] theorem State.modQueue_holds (p : Port) (f : PortQueue → PortQueue) (s : State) : (s.modQueue p f).holds = s.holds := rfl
@[simp] theorem State.modQueue_watch (p : Port) (f : PortQueue → PortQueue) (s : State) : (s.modQueue p f).watch = s.watch := rfl
@[simp] theorem State.modQueue_journal (p : Port) (f : PortQueue → PortQueue) (s : State) :
    (s.modQueue p f).journal = s.journal := rfl
@[simp] theorem State.modQueue_figure (p : Port) (f : PortQueue → PortQueue) (s : State) : (s.modQueue p f).figure = s.figure := rfl
@[simp] theorem State.modQueue_notices (p : Port) (f : PortQueue → PortQueue) (s : State) :
    (s.modQueue p f).notices = s.notices := rfl
@[simp] theorem State.modQueue_carousels (p : Port) (f : PortQueue → PortQueue) (s : State) :
    (s.modQueue p f).carousels = s.carousels := rfl
@[simp] theorem State.modQueue_plays (p : Port) (f : PortQueue → PortQueue) (s : State) : (s.modQueue p f).plays = s.plays := rfl
@[simp] theorem State.modQueue_panels (p : Port) (f : PortQueue → PortQueue) (s : State) : (s.modQueue p f).panels = s.panels := rfl
@[simp] theorem State.modQueue_links (p : Port) (f : PortQueue → PortQueue) (s : State) : (s.modQueue p f).links = s.links := rfl
@[simp] theorem State.modQueue_framePeriod (p : Port) (f : PortQueue → PortQueue) (s : State) :
    (s.modQueue p f).framePeriod = s.framePeriod := rfl
@[simp] theorem State.modQueue_ports (p : Port) (f : PortQueue → PortQueue) (s : State) : (s.modQueue p f).ports = s.ports := rfl
@[simp] theorem State.modQueue_queues (p : Port) (f : PortQueue → PortQueue) (s : State) :
    (s.modQueue p f).queues = s.queues.mod f p := rfl
@[simp] theorem State.modQueue_pending (p : Port) (f : PortQueue → PortQueue) (s : State) :
    (s.modQueue p f).pending = s.pending := rfl
@[simp] theorem State.modQueue_outbox (p : Port) (f : PortQueue → PortQueue) (s : State) : (s.modQueue p f).outbox = s.outbox := rfl
@[simp] theorem State.modQueue_journalBox (p : Port) (f : PortQueue → PortQueue) (s : State) :
    (s.modQueue p f).journalBox = s.journalBox := rfl
@[simp] theorem State.modQueue_choice (p : Port) (f : PortQueue → PortQueue) (s : State) : (s.modQueue p f).choice = s.choice := rfl
@[simp] theorem State.modQueue_read_showing? (p : Port) (f : PortQueue → PortQueue) (s : State) (i : Nat) :
    (s.modQueue p f).showing? i = s.showing? i := rfl
@[simp] theorem State.modQueue_read_hold? (p : Port) (f : PortQueue → PortQueue) (s : State) (i : Nat) :
    (s.modQueue p f).hold? i = s.hold? i := rfl
@[simp] theorem State.modQueue_read_notice? (p : Port) (f : PortQueue → PortQueue) (s : State) (i : Nat) :
    (s.modQueue p f).notice? i = s.notice? i := rfl
@[simp] theorem State.modQueue_read_auditorium (p : Port) (f : PortQueue → PortQueue) (s : State) (i : Nat) :
    (s.modQueue p f).auditorium i = s.auditorium i := rfl
@[simp] theorem State.modQueue_read_feature? (p : Port) (f : PortQueue → PortQueue) (s : State) (i : Nat) :
    (s.modQueue p f).feature? i = s.feature? i := rfl
@[simp] theorem State.modQueue_read_text (p : Port) (f : PortQueue → PortQueue) (s : State) (i : Nat) :
    (s.modQueue p f).text i = s.text i := rfl
@[simp] theorem State.modQueue_read_carousel (p : Port) (f : PortQueue → PortQueue) (s : State) (i : Nat) :
    (s.modQueue p f).carousel i = s.carousel i := rfl
@[simp] theorem State.modQueue_read_play? (p : Port) (f : PortQueue → PortQueue) (s : State) (i : Nat) :
    (s.modQueue p f).play? i = s.play? i := rfl
@[simp] theorem State.modQueue_read_panel (p : Port) (f : PortQueue → PortQueue) (s : State) (i : Nat) :
    (s.modQueue p f).panel i = s.panel i := rfl
@[simp] theorem State.modQueue_read_link (p : Port) (f : PortQueue → PortQueue) (s : State) (i : Nat) :
    (s.modQueue p f).link i = s.link i := rfl
@[simp] theorem State.modQueue_read_takeover (p : Port) (f : PortQueue → PortQueue) (s : State) (i : Nat) :
    (s.modQueue p f).takeover i = s.takeover i := rfl
@[simp] theorem State.modQueue_read_port (p : Port) (f : PortQueue → PortQueue) (s : State) (i : Port) :
    (s.modQueue p f).port i = s.port i := rfl

/-! ### raise -/

@[simp] theorem raise_rstn (g : Source) (k : EventKind) (n d : Nat) (s : State) : (raise g k n d s).rstn = s.rstn := rfl
@[simp] theorem raise_deferred (g : Source) (k : EventKind) (n d : Nat) (s : State) : (raise g k n d s).deferred = s.deferred := rfl
@[simp] theorem raise_cal (g : Source) (k : EventKind) (n d : Nat) (s : State) : (raise g k n d s).cal = s.cal := rfl
@[simp] theorem raise_core (g : Source) (k : EventKind) (n d : Nat) (s : State) : (raise g k n d s).core = s.core := rfl
@[simp] theorem raise_catalogue (g : Source) (k : EventKind) (n d : Nat) (s : State) :
    (raise g k n d s).catalogue = s.catalogue := rfl
@[simp] theorem raise_showings (g : Source) (k : EventKind) (n d : Nat) (s : State) : (raise g k n d s).showings = s.showings := rfl
@[simp] theorem raise_life (g : Source) (k : EventKind) (n d : Nat) (s : State) : (raise g k n d s).life = s.life := rfl
@[simp] theorem raise_holds (g : Source) (k : EventKind) (n d : Nat) (s : State) : (raise g k n d s).holds = s.holds := rfl
@[simp] theorem raise_watch (g : Source) (k : EventKind) (n d : Nat) (s : State) : (raise g k n d s).watch = s.watch := rfl
@[simp] theorem raise_journal (g : Source) (k : EventKind) (n d : Nat) (s : State) : (raise g k n d s).journal = s.journal := rfl
@[simp] theorem raise_figure (g : Source) (k : EventKind) (n d : Nat) (s : State) : (raise g k n d s).figure = s.figure := rfl
@[simp] theorem raise_notices (g : Source) (k : EventKind) (n d : Nat) (s : State) : (raise g k n d s).notices = s.notices := rfl
@[simp] theorem raise_carousels (g : Source) (k : EventKind) (n d : Nat) (s : State) :
    (raise g k n d s).carousels = s.carousels := rfl
@[simp] theorem raise_plays (g : Source) (k : EventKind) (n d : Nat) (s : State) : (raise g k n d s).plays = s.plays := rfl
@[simp] theorem raise_panels (g : Source) (k : EventKind) (n d : Nat) (s : State) : (raise g k n d s).panels = s.panels := rfl
@[simp] theorem raise_links (g : Source) (k : EventKind) (n d : Nat) (s : State) : (raise g k n d s).links = s.links := rfl
@[simp] theorem raise_framePeriod (g : Source) (k : EventKind) (n d : Nat) (s : State) :
    (raise g k n d s).framePeriod = s.framePeriod := rfl
@[simp] theorem raise_ports (g : Source) (k : EventKind) (n d : Nat) (s : State) : (raise g k n d s).ports = s.ports := rfl
@[simp] theorem raise_queues (g : Source) (k : EventKind) (n d : Nat) (s : State) : (raise g k n d s).queues = s.queues := rfl
@[simp] theorem raise_pending (g : Source) (k : EventKind) (n d : Nat) (s : State) : (raise g k n d s).pending = s.pending := rfl
@[simp] theorem raise_outbox (g : Source) (k : EventKind) (n d : Nat) (s : State) :
    (raise g k n d s).outbox = s.outbox ++ [(g, s.record k n d)] := rfl
@[simp] theorem raise_journalBox (g : Source) (k : EventKind) (n d : Nat) (s : State) :
    (raise g k n d s).journalBox = s.journalBox := rfl
@[simp] theorem raise_choice (g : Source) (k : EventKind) (n d : Nat) (s : State) : (raise g k n d s).choice = s.choice := rfl
@[simp] theorem raise_read_showing? (g : Source) (k : EventKind) (n d : Nat) (s : State) (i : Nat) :
    (raise g k n d s).showing? i = s.showing? i := rfl
@[simp] theorem raise_read_hold? (g : Source) (k : EventKind) (n d : Nat) (s : State) (i : Nat) :
    (raise g k n d s).hold? i = s.hold? i := rfl
@[simp] theorem raise_read_notice? (g : Source) (k : EventKind) (n d : Nat) (s : State) (i : Nat) :
    (raise g k n d s).notice? i = s.notice? i := rfl
@[simp] theorem raise_read_auditorium (g : Source) (k : EventKind) (n d : Nat) (s : State) (i : Nat) :
    (raise g k n d s).auditorium i = s.auditorium i := rfl
@[simp] theorem raise_read_feature? (g : Source) (k : EventKind) (n d : Nat) (s : State) (i : Nat) :
    (raise g k n d s).feature? i = s.feature? i := rfl
@[simp] theorem raise_read_text (g : Source) (k : EventKind) (n d : Nat) (s : State) (i : Nat) :
    (raise g k n d s).text i = s.text i := rfl
@[simp] theorem raise_read_carousel (g : Source) (k : EventKind) (n d : Nat) (s : State) (i : Nat) :
    (raise g k n d s).carousel i = s.carousel i := rfl
@[simp] theorem raise_read_play? (g : Source) (k : EventKind) (n d : Nat) (s : State) (i : Nat) :
    (raise g k n d s).play? i = s.play? i := rfl
@[simp] theorem raise_read_panel (g : Source) (k : EventKind) (n d : Nat) (s : State) (i : Nat) :
    (raise g k n d s).panel i = s.panel i := rfl
@[simp] theorem raise_read_link (g : Source) (k : EventKind) (n d : Nat) (s : State) (i : Nat) :
    (raise g k n d s).link i = s.link i := rfl
@[simp] theorem raise_read_takeover (g : Source) (k : EventKind) (n d : Nat) (s : State) (i : Nat) :
    (raise g k n d s).takeover i = s.takeover i := rfl
@[simp] theorem raise_read_port (g : Source) (k : EventKind) (n d : Nat) (s : State) (i : Port) :
    (raise g k n d s).port i = s.port i := rfl
@[simp] theorem raise_read_queue (g : Source) (k : EventKind) (n d : Nat) (s : State) (i : Port) :
    (raise g k n d s).queue i = s.queue i := rfl

/-! ### journalize -/

@[simp] theorem journalize_rstn (g : Source) (e : JournalEntry) (s : State) : (journalize g e s).rstn = s.rstn := rfl
@[simp] theorem journalize_deferred (g : Source) (e : JournalEntry) (s : State) : (journalize g e s).deferred = s.deferred := rfl
@[simp] theorem journalize_cal (g : Source) (e : JournalEntry) (s : State) : (journalize g e s).cal = s.cal := rfl
@[simp] theorem journalize_core (g : Source) (e : JournalEntry) (s : State) : (journalize g e s).core = s.core := rfl
@[simp] theorem journalize_catalogue (g : Source) (e : JournalEntry) (s : State) : (journalize g e s).catalogue = s.catalogue := rfl
@[simp] theorem journalize_showings (g : Source) (e : JournalEntry) (s : State) : (journalize g e s).showings = s.showings := rfl
@[simp] theorem journalize_life (g : Source) (e : JournalEntry) (s : State) : (journalize g e s).life = s.life := rfl
@[simp] theorem journalize_holds (g : Source) (e : JournalEntry) (s : State) : (journalize g e s).holds = s.holds := rfl
@[simp] theorem journalize_watch (g : Source) (e : JournalEntry) (s : State) : (journalize g e s).watch = s.watch := rfl
@[simp] theorem journalize_journal (g : Source) (e : JournalEntry) (s : State) : (journalize g e s).journal = s.journal := rfl
@[simp] theorem journalize_figure (g : Source) (e : JournalEntry) (s : State) : (journalize g e s).figure = s.figure := rfl
@[simp] theorem journalize_notices (g : Source) (e : JournalEntry) (s : State) : (journalize g e s).notices = s.notices := rfl
@[simp] theorem journalize_carousels (g : Source) (e : JournalEntry) (s : State) : (journalize g e s).carousels = s.carousels := rfl
@[simp] theorem journalize_plays (g : Source) (e : JournalEntry) (s : State) : (journalize g e s).plays = s.plays := rfl
@[simp] theorem journalize_panels (g : Source) (e : JournalEntry) (s : State) : (journalize g e s).panels = s.panels := rfl
@[simp] theorem journalize_links (g : Source) (e : JournalEntry) (s : State) : (journalize g e s).links = s.links := rfl
@[simp] theorem journalize_framePeriod (g : Source) (e : JournalEntry) (s : State) :
    (journalize g e s).framePeriod = s.framePeriod := rfl
@[simp] theorem journalize_ports (g : Source) (e : JournalEntry) (s : State) : (journalize g e s).ports = s.ports := rfl
@[simp] theorem journalize_queues (g : Source) (e : JournalEntry) (s : State) : (journalize g e s).queues = s.queues := rfl
@[simp] theorem journalize_pending (g : Source) (e : JournalEntry) (s : State) : (journalize g e s).pending = s.pending := rfl
@[simp] theorem journalize_outbox (g : Source) (e : JournalEntry) (s : State) : (journalize g e s).outbox = s.outbox := rfl
@[simp] theorem journalize_journalBox (g : Source) (e : JournalEntry) (s : State) :
    (journalize g e s).journalBox = s.journalBox ++ [(g, e)] := rfl
@[simp] theorem journalize_choice (g : Source) (e : JournalEntry) (s : State) : (journalize g e s).choice = s.choice := rfl
@[simp] theorem journalize_read_showing? (g : Source) (e : JournalEntry) (s : State) (i : Nat) :
    (journalize g e s).showing? i = s.showing? i := rfl
@[simp] theorem journalize_read_hold? (g : Source) (e : JournalEntry) (s : State) (i : Nat) :
    (journalize g e s).hold? i = s.hold? i := rfl
@[simp] theorem journalize_read_notice? (g : Source) (e : JournalEntry) (s : State) (i : Nat) :
    (journalize g e s).notice? i = s.notice? i := rfl
@[simp] theorem journalize_read_auditorium (g : Source) (e : JournalEntry) (s : State) (i : Nat) :
    (journalize g e s).auditorium i = s.auditorium i := rfl
@[simp] theorem journalize_read_feature? (g : Source) (e : JournalEntry) (s : State) (i : Nat) :
    (journalize g e s).feature? i = s.feature? i := rfl
@[simp] theorem journalize_read_text (g : Source) (e : JournalEntry) (s : State) (i : Nat) :
    (journalize g e s).text i = s.text i := rfl
@[simp] theorem journalize_read_carousel (g : Source) (e : JournalEntry) (s : State) (i : Nat) :
    (journalize g e s).carousel i = s.carousel i := rfl
@[simp] theorem journalize_read_play? (g : Source) (e : JournalEntry) (s : State) (i : Nat) :
    (journalize g e s).play? i = s.play? i := rfl
@[simp] theorem journalize_read_panel (g : Source) (e : JournalEntry) (s : State) (i : Nat) :
    (journalize g e s).panel i = s.panel i := rfl
@[simp] theorem journalize_read_link (g : Source) (e : JournalEntry) (s : State) (i : Nat) :
    (journalize g e s).link i = s.link i := rfl
@[simp] theorem journalize_read_takeover (g : Source) (e : JournalEntry) (s : State) (i : Nat) :
    (journalize g e s).takeover i = s.takeover i := rfl
@[simp] theorem journalize_read_port (g : Source) (e : JournalEntry) (s : State) (i : Port) :
    (journalize g e s).port i = s.port i := rfl
@[simp] theorem journalize_read_queue (g : Source) (e : JournalEntry) (s : State) (i : Port) :
    (journalize g e s).queue i = s.queue i := rfl

/-! ### settle -/

@[simp] theorem settle_rstn (s : State) : (settle s).rstn = s.rstn := rfl
@[simp] theorem settle_deferred (s : State) : (settle s).deferred = s.deferred := rfl
@[simp] theorem settle_cal (s : State) : (settle s).cal = s.cal := rfl
@[simp] theorem settle_core (s : State) : (settle s).core = s.core := rfl
@[simp] theorem settle_catalogue (s : State) : (settle s).catalogue = s.catalogue := rfl
@[simp] theorem settle_showings (s : State) : (settle s).showings = s.showings := rfl
@[simp] theorem settle_life (s : State) : (settle s).life = s.life := rfl
@[simp] theorem settle_holds (s : State) : (settle s).holds = s.holds := rfl
@[simp] theorem settle_watch (s : State) : (settle s).watch = s.watch := rfl
@[simp] theorem settle_journal (s : State) : (settle s).journal = s.settledJournal := rfl
@[simp] theorem settle_figure (s : State) : (settle s).figure = s.figure := rfl
@[simp] theorem settle_notices (s : State) : (settle s).notices = s.notices := rfl
@[simp] theorem settle_carousels (s : State) : (settle s).carousels = s.carousels := rfl
@[simp] theorem settle_plays (s : State) : (settle s).plays = s.plays := rfl
@[simp] theorem settle_panels (s : State) : (settle s).panels = s.panels := rfl
@[simp] theorem settle_links (s : State) : (settle s).links = s.links := rfl
@[simp] theorem settle_framePeriod (s : State) : (settle s).framePeriod = s.framePeriod := rfl
@[simp] theorem settle_ports (s : State) : (settle s).ports = s.ports := rfl
@[simp] theorem settle_queues (s : State) : (settle s).queues = s.settledRecords.foldl (offerAll s.ports) s.queues := rfl
@[simp] theorem settle_pending (s : State) : (settle s).pending = s.pending := rfl
@[simp] theorem settle_outbox (s : State) : (settle s).outbox = [] := rfl
@[simp] theorem settle_journalBox (s : State) : (settle s).journalBox = [] := rfl
@[simp] theorem settle_choice (s : State) : (settle s).choice = s.choice + s.journalBox.length + s.outbox.length := rfl
@[simp] theorem settle_read_showing? (s : State) (i : Nat) : (settle s).showing? i = s.showing? i := rfl
@[simp] theorem settle_read_hold? (s : State) (i : Nat) : (settle s).hold? i = s.hold? i := rfl
@[simp] theorem settle_read_notice? (s : State) (i : Nat) : (settle s).notice? i = s.notice? i := rfl
@[simp] theorem settle_read_auditorium (s : State) (i : Nat) : (settle s).auditorium i = s.auditorium i := rfl
@[simp] theorem settle_read_feature? (s : State) (i : Nat) : (settle s).feature? i = s.feature? i := rfl
@[simp] theorem settle_read_text (s : State) (i : Nat) : (settle s).text i = s.text i := rfl
@[simp] theorem settle_read_carousel (s : State) (i : Nat) : (settle s).carousel i = s.carousel i := rfl
@[simp] theorem settle_read_play? (s : State) (i : Nat) : (settle s).play? i = s.play? i := rfl
@[simp] theorem settle_read_panel (s : State) (i : Nat) : (settle s).panel i = s.panel i := rfl
@[simp] theorem settle_read_link (s : State) (i : Nat) : (settle s).link i = s.link i := rfl
@[simp] theorem settle_read_takeover (s : State) (i : Nat) : (settle s).takeover i = s.takeover i := rfl
@[simp] theorem settle_read_port (s : State) (i : Port) : (settle s).port i = s.port i := rfl

end Sys2Proof.Machine
end

