-- ==== Sys2Proof/Laws/Ops.lean ====
section
/-! SUPPORT. What the shared operations can do: the open orders, the end of an arrival, a message heard and a request taken. -/

namespace Sys2Proof.Machine

/-! ### Orders -/

@[simp] theorem arrange_nil {α : Type} (k : Nat) : arrange (α := α) k [] = [] := rfl

@[simp] theorem arrange_singleton {α : Type} (k : Nat) (x : Source × α) : arrange k [x] = [x] := rfl

/-- An order loses nothing and adds nothing. -/
theorem arrange_perm {α : Type} (k : Nat) (l : List (Source × α)) : (arrange k l).Perm l := by
  induction l generalizing k with
  | nil => exact .refl _
  | cons x l ih =>
    simp only [arrange]
    split
    · exact (ih _).cons x
    · have h2 := List.findIdx_le_length (p := fun y : Source × α => decide (y.1 = x.1)) (xs := arrange (k + 1) l)
      generalize (arrange (k + 1) l).findIdx (fun y => decide (y.1 = x.1)) = r at h2 ⊢
      have h1 : Config.pick k % (r + 1) < r + 1 := Nat.mod_lt _ r.succ_pos
      exact (List.perm_insertIdx x _ (by omega)).trans ((ih _).cons x)

@[simp] theorem arrange_length {α : Type} (k : Nat) (l : List (Source × α)) : (arrange k l).length = l.length :=
  (arrange_perm k l).length_eq

@[simp] theorem anyOrder_nil {α : Type} (k : Nat) (g : α → Source) : anyOrder k g [] = [] := rfl

@[simp] theorem anyOrder_singleton {α : Type} (k : Nat) (g : α → Source) (x : α) : anyOrder k g [x] = [x] := rfl

theorem anyOrder_perm {α : Type} (k : Nat) (g : α → Source) (l : List α) : (anyOrder k g l).Perm l := by
  have h := (arrange_perm k (l.map fun x => (g x, x))).map Prod.snd
  simpa [anyOrder, Function.comp_def] using h

/-- What a part of an arrival raises in any order is what it raises, after what was raised before it. -/
theorem inAnyOrder_outbox (g : Source) (f : State → State) (s : State) :
    ∃ l : List (Source × EventRecord), (inAnyOrder g f s).outbox = s.outbox ++ l.map (fun x => (g, x.2)) ∧
      l.Perm (f { s with outbox := [] }).outbox :=
  ⟨_, rfl, arrange_perm _ _⟩

/-- A part of an arrival in any order does to the rest of the state what it does. -/
theorem inAnyOrder_rest (g : Source) (f : State → State) (s : State) :
    inAnyOrder g f s = { f { s with outbox := [] } with
      outbox := (inAnyOrder g f s).outbox
      choice := (inAnyOrder g f s).choice } := rfl

/-! ### Queues and the journal -/

theorem PortQueue.push_filter (q : PortQueue) (r : EventRecord) : (q.push r).filter = q.filter := by
  unfold PortQueue.push; split <;> rfl

theorem PortQueue.push_bounded {q : PortQueue} (r : EventRecord) (h : q.Bounded) : (q.push r).Bounded := by
  refine ⟨?_, by rw [PortQueue.push_filter]; exact h.2⟩
  have := h.1
  unfold PortQueue.push Config.queuePlaces
  split <;> simp <;> omega

theorem offer_bounded {q : PortQueue} (role : Role) (r : EventRecord) (h : q.Bounded) : (offer role r q).Bounded := by
  unfold offer; split
  · exact PortQueue.push_bounded r h
  · exact h

/-- Whatever is offered at an arrival, every queue stays within its bounds. -/
theorem foldl_offerAll_bounded (ports : PerPort PortState) (l : List EventRecord) {q : PerPort PortQueue}
    (ha : q.a.Bounded) (hb : q.b.Bounded) (hc : q.c.Bounded) :
    (l.foldl (offerAll ports) q).a.Bounded ∧ (l.foldl (offerAll ports) q).b.Bounded ∧
      (l.foldl (offerAll ports) q).c.Bounded := by
  induction l generalizing q with
  | nil => exact ⟨ha, hb, hc⟩
  | cons r l ih => exact ih (offer_bounded _ r ha) (offer_bounded _ r hb) (offer_bounded _ r hc)

theorem Journal.append_bounded {j : Journal} (e : JournalEntry) (h : j.filling.length ≤ 128) :
    (j.append e).filling.length ≤ 128 ∧ (j.append e).closed = j.closed := by
  unfold Journal.append Config.bankPlaces
  split
  · simp; omega
  · exact ⟨h, rfl⟩

theorem foldl_append_bounded (l : List JournalEntry) {j : Journal} (h : j.filling.length ≤ 128) :
    (l.foldl Journal.append j).filling.length ≤ 128 ∧ (l.foldl Journal.append j).closed = j.closed := by
  induction l generalizing j with
  | nil => exact ⟨h, rfl⟩
  | cons e l ih =>
    obtain ⟨h1, h2⟩ := Journal.append_bounded e h
    obtain ⟨h3, h4⟩ := ih h1
    exact ⟨h3, h4.trans h2⟩

/-! ### The end of an arrival -/

/-- An arrival that raised nothing ends as it stands. -/
theorem settle_settled {s : State} (h : s.Settled) : settle s = s := by
  obtain ⟨h1, h2⟩ := h
  cases s
  simp_all [settle, State.settledJournal, State.settledRecords]

theorem settle_isSettled (s : State) : (settle s).Settled := ⟨rfl, rfl⟩

/-- An arrival that raised one record and made no entry places it and nothing else. -/
theorem settle_one {s : State} {x : Source × EventRecord} (h1 : s.outbox = [x]) (h2 : s.journalBox = []) :
    settle s = { s with queues := offerAll s.ports s.queues x.2, outbox := [], choice := s.choice + 1 } := by
  cases s
  simp_all [settle, State.settledJournal, State.settledRecords]

/-! ### Ports -/

@[simp] theorem PerPort.get_mod_same {α : Type} (f : α → α) (x : PerPort α) (p : Port) : (x.mod f p).get p = f (x.get p) := by
  cases p <;> rfl

theorem PerPort.get_mod_other {α : Type} (f : α → α) (x : PerPort α) {p q : Port} (h : q ≠ p) :
    (x.mod f p).get q = x.get q := by
  cases p <;> cases q <;> first | rfl | exact absurd rfl h

@[simp] theorem State.port_modPort_same (p : Port) (f : PortState → PortState) (s : State) :
    (s.modPort p f).port p = f (s.port p) := PerPort.get_mod_same f s.ports p

theorem State.port_modPort_other {p q : Port} (f : PortState → PortState) (s : State) (h : q ≠ p) :
    (s.modPort p f).port q = s.port q := PerPort.get_mod_other f s.ports h

/-- A change that keeps roles keeps every port's role. -/
theorem State.role_modPort (p q : Port) (f : PortState → PortState) (s : State) (h : ∀ x, (f x).role = x.role) :
    ((s.modPort p f).port q).role = (s.port q).role := by
  by_cases e : q = p
  · subst e; simp [h]
  · rw [State.port_modPort_other f s e]

@[simp] theorem clockOut_role (n : Nat) (ps : PortState) : (clockOut n ps).role = ps.role := by
  unfold clockOut
  split
  · split <;> rfl
  · rfl

@[simp] theorem placeReply_role (r : Reply) (ps : PortState) : (placeReply r ps).role = ps.role := rfl

@[simp] theorem deselect_role (ps : PortState) : (deselect ps).role = ps.role := rfl

/-- The queues that records join depend on the ports' roles alone. -/
theorem offerAll_role {x y : PerPort PortState} (h : ∀ p, (x.get p).role = (y.get p).role) (q : PerPort PortQueue)
    (r : EventRecord) : offerAll x q r = offerAll y q r := by
  have ha := h .a
  have hb := h .b
  have hc := h .c
  simp only [PerPort.get] at ha hb hc
  simp [offerAll, ha, hb, hc]

/-! ### A message heard, a request taken -/

/-- A sign of life changes the sales watch, the queues and the count of choices, and nothing else. -/
theorem signOfLife_frame (p : Port) {s : State} (h : s.Settled) :
    ∃ w q c, signOfLife p s = { s with watch := w, queues := q, choice := c } := by
  obtain ⟨h1, h2⟩ := h
  unfold signOfLife
  split
  · split
    · exact ⟨_, _, _, rfl⟩
    · rw [settle_one (x := (.board, State.record _ .salesResumed 0 (portCode p))) (by simp [h1]; rfl) (by simp [h2])]
      exact ⟨_, _, _, by simp only [raise, h1, List.nil_append]; rfl⟩
  · exact ⟨_, _, _, rfl⟩

/-- A port of another role than SALES gives no sign of life. -/
theorem signOfLife_other {p : Port} {s : State} (h : (s.port p).role ≠ .sales) : signOfLife p s = s := by
  simp [signOfLife, h]

/-- What a message heard changes: the port that sent it, the sales watch, the queues and the count of choices. -/
theorem heard_frame (t : Txn) (n : Nat) {s : State} (h : s.Settled) :
    ∃ w q c, heard t n s =
      { s with ports := s.ports.mod (clockOut (n + t.surplus)) t.port, watch := w, queues := q, choice := c } :=
  signOfLife_frame t.port (s := s.modPort t.port (clockOut (n + t.surplus))) h

theorem heard_settled (t : Txn) (n : Nat) {s : State} (h : s.Settled) : (heard t n s).Settled := by
  obtain ⟨w, q, c, e⟩ := heard_frame t n h
  rw [e]; exact h

theorem heard_role (t : Txn) (n : Nat) {s : State} (h : s.Settled) (p : Port) :
    ((heard t n s).port p).role = (s.port p).role := by
  obtain ⟨w, q, c, e⟩ := heard_frame t n h
  rw [e]
  exact State.role_modPort t.port p _ s fun x => clockOut_role _ x

/-- A request on a port that takes none releases chip-select and does nothing else (R183). -/
theorem request_untaken {t : Txn} {s : State} (h : s.takes t.port = false) (n kind : Nat) (roles : List Role)
    (body : State → Answer × State) : request t n kind roles body s = s.modPort t.port deselect := by
  simp [request, transaction, h]

/-- A request that is taken: its rule is carried out on the state as heard, the arrival ends, and its reply is placed. -/
theorem request_taken {t : Txn} {s : State} (h : s.takes t.port = true) (hs : s.Settled) (n kind : Nat) {roles : List Role}
    (hr : (s.port t.port).role ∈ roles) (body : State → Answer × State) :
    request t n kind roles body s = replied t kind (body (heard t n s)).1 (settle (body (heard t n s)).2) := by
  have hr' : ((heard t n s).port t.port).role ∈ roles := by rw [heard_role t n hs]; exact hr
  have hr'' : ((signOfLife t.port (s.modPort t.port (clockOut (n + t.surplus)))).port t.port).role ∈ roles := hr'
  simp only [request, transaction, h, hr'', ite_true]
  rfl

end Sys2Proof.Machine
end

