-- ==== Sys2Proof/Laws/Pages.lean ====
section
/-! SUPPORT. What the shared operations of a composition come to: the indexes, the row entry, the notice entry, the strip and the
choice of texts. -/

namespace Sys2Proof.Machine

/-- R143, R144. -/
theorem turn_turned (index count dwell places : Nat) :
    Turned index count dwell places (turn index count dwell places).1 (turn index count dwell places).2 := by
  constructor <;> intro h <;> simp only [turn, h, if_true, if_false, true_and] <;> split <;> split <;> omega

/-- R142. -/
theorem row_entry (s : State) (layout : Layout) (x : Showing) : s.RowEntry layout x (s.row layout x) where
  showing := ⟨rfl, rfl, rfl⟩
  codes := ⟨rfl, rfl, rfl⟩
  auditorium := rfl
  name := ⟨rfl, rfl⟩
  feature f h := by simp [State.row, h]
  title := rfl
  current h := by simp [State.row, h, displayed, moreMark]
  stale h := by simp [State.row, h]
  suspended := by simp [State.row, State.suspended]
  oversold := by simp [State.row]

/-- R113, R144, R145. -/
theorem noticePart_entry (s : State) (n : Notice) : s.NoticeEntry n (s.noticePart n) where
  notice := ⟨rfl, rfl, rfl⟩
  revision i h := by simp [State.noticePart, h, State.revision]
  on := by
    rcases hf : n.flash with _ | ⟨a, b⟩ <;> rcases hp : n.position with _ | k <;> simp [State.noticePart, Notice.on, hf, hp]

/-- R144. -/
theorem strip_eq_stripOf (s : State) (p : Nat) : s.strip p = s.stripOf p := by
  simp only [State.strip, State.stripOf, stripClasses, List.filter_filterMap]
  congr 1
  funext c
  congr 1
  funext i
  cases h : s.notice? i <;> simp [Notice.covers, inSet, Option.filter, beq_iff_eq, Bool.decide_or]

/-! ### The choice of texts -/

theorem mem_insertId (i j : Nat) (l : List Nat) : j ∈ insertId i l ↔ j = i ∨ j ∈ l := by
  induction l with
  | nil => simp [insertId]
  | cons k l ih =>
    unfold insertId
    split
    · simp
    · split
      · simp_all
      · simp [ih, or_left_comm]

theorem insertId_rising (i : Nat) (l : List Nat) (h : Rising l) : Rising (insertId i l) := by
  induction l with
  | nil => simp [insertId]
  | cons k l ih =>
    obtain ⟨hk, hl⟩ := List.pairwise_cons.1 h
    unfold insertId
    split
    next lt =>
      refine List.pairwise_cons.2 ⟨fun j hj => ?_, h⟩
      rcases List.mem_cons.1 hj with rfl | hj
      · exact lt
      · exact lt.trans (hk j hj)
    · split
      · exact h
      · refine List.pairwise_cons.2 ⟨fun j hj => ?_, ih hl⟩
        rcases (mem_insertId i j l).1 hj with rfl | hj
        · omega
        · exact hk j hj

/-- Lowest first holds what the list holds, each once. -/
theorem mem_lowestFirst (i : Nat) (l : List Nat) : i ∈ lowestFirst l ↔ i ∈ l := by
  induction l with
  | nil => simp [lowestFirst]
  | cons j l ih => simp [lowestFirst, mem_insertId] at *; rw [ih]

theorem lowestFirst_rising (l : List Nat) : Rising (lowestFirst l) := by
  induction l with
  | nil => simp [lowestFirst]
  | cons j l ih => exact insertId_rising j _ ih

/-- A group offered to what is chosen already: its texts that are neither marked nor chosen join in their order. -/
theorem choose_group (marked acc l : List Nat) (h : Rising l) :
    l.foldl (fun acc i => if marked.contains i || acc.contains i then acc else acc ++ [i]) acc =
      acc ++ l.filter fun i => decide (i ∉ marked ∧ i ∉ acc) := by
  induction l generalizing acc with
  | nil => simp
  | cons i l ih =>
    obtain ⟨hi, hl⟩ := List.pairwise_cons.1 h
    simp only [List.foldl_cons, ih _ hl]
    by_cases c : i ∈ marked ∨ i ∈ acc
    · have : (marked.contains i || acc.contains i) = true := by simpa using c
      simp only [this, if_true]
      rw [List.filter_cons_of_neg (by simpa [or_iff_not_imp_left] using c)]
    · have : (marked.contains i || acc.contains i) = false := by simpa using c
      simp only [this, Bool.false_eq_true, if_false, List.append_assoc]
      congr 1
      rw [List.filter_cons_of_pos (by simpa using c), List.singleton_append]
      congr 1
      refine List.filter_congr fun j hj => ?_
      have := hi j hj
      simp [show j ≠ i by omega]

/-- R152. -/
theorem chooseTexts_chosen (marked own others rest : List Nat) :
    ChosenTexts marked own others rest (chooseTexts marked [own, others, rest]) := by
  let a := (lowestFirst own).filter fun i => decide (i ∉ marked ∧ i ∉ ([] : List Nat))
  let b := (lowestFirst others).filter fun i => decide (i ∉ marked ∧ i ∉ a)
  let c := (lowestFirst rest).filter fun i => decide (i ∉ marked ∧ i ∉ a ++ b)
  have all : chooseTexts marked [own, others, rest] = (a ++ b ++ c).take 2 := by
    simp only [chooseTexts, List.flatMap_cons, List.flatMap_nil, List.append_nil, List.foldl_append,
      choose_group _ _ _ (lowestFirst_rising _), List.nil_append]
    simp [a, b, c]
  have ma : ∀ i, i ∈ a ↔ i ∈ own ∧ i ∉ marked := by simp [a, mem_lowestFirst]
  have mb : ∀ i, i ∈ b ↔ i ∈ others ∧ i ∉ marked ∧ i ∉ a := by simp [b, mem_lowestFirst]
  have mc : ∀ i, i ∈ c ↔ i ∈ rest ∧ i ∉ marked ∧ i ∉ a ∧ i ∉ b := by simp [c, mem_lowestFirst]
  have ga : ∀ i ∈ a, textGroup own others i = 1 := fun i h => by simp [textGroup, (ma i).1 h]
  have gb : ∀ i ∈ b, textGroup own others i = 2 := fun i h => by
    have := (mb i).1 h
    simp [textGroup, this, show i ∉ own from fun o => this.2.2 ((ma i).2 ⟨o, this.2.1⟩)]
  have gc : ∀ i ∈ c, textGroup own others i = 3 := fun i h => by
    have := (mc i).1 h
    have no : i ∉ own := fun o => this.2.2.1 ((ma i).2 ⟨o, this.2.1⟩)
    simp [textGroup, no, show i ∉ others from fun o => this.2.2.2 ((mb i).2 ⟨o, this.2.1, this.2.2.1⟩)]
  have within : ∀ (g : Nat) (l : List Nat) (f : Nat → Bool), (∀ i ∈ (lowestFirst l).filter f, textGroup own others i = g) →
      ((lowestFirst l).filter f).Pairwise (TextBefore own others) := fun g l f h =>
    ((lowestFirst_rising l).filter f).imp_of_mem fun {i j} hi hj lt => .inr ⟨(h i hi).trans (h j hj).symm, lt⟩
  have ordered : (a ++ b ++ c).Pairwise (TextBefore own others) := by
    refine List.pairwise_append.2 ⟨List.pairwise_append.2 ⟨within 1 _ _ ga, within 2 _ _ gb, fun i hi j hj => ?_⟩, within 3 _ _ gc,
      fun i hi j hj => ?_⟩
    · exact .inl (by rw [ga i hi, gb j hj]; decide)
    · rcases List.mem_append.1 hi with h | h
      · exact .inl (by rw [ga i h, gc j hj]; decide)
      · exact .inl (by rw [gb i h, gc j hj]; decide)
  have member : ∀ i, i ∈ a ++ b ++ c ↔ i ∉ marked ∧ (i ∈ own ∨ i ∈ others ∨ i ∈ rest) := fun i => by
    simp only [List.mem_append, mc, mb, ma]; tauto
  rw [all]
  refine ⟨by simp, fun i h => (member i).1 (List.mem_of_mem_take h), ordered.sublist (List.take_sublist 2 _), fun i hm hi hl => ?_⟩
  have hd : i ∈ (a ++ b ++ c).drop 2 := by
    have := (member i).2 ⟨hm, hi⟩
    rw [← List.take_append_drop 2 (a ++ b ++ c)] at this
    exact (List.mem_append.1 this).resolve_left hl
  have long := List.length_pos_of_mem hd
  rw [List.length_drop] at long
  refine ⟨by rw [List.length_take]; omega, fun j hj => ?_⟩
  rw [← List.take_append_drop 2 (a ++ b ++ c)] at ordered
  exact (List.pairwise_append.1 ordered).2.2 j hj i hd

/-! ### The body -/

theorem textsOfNotices_eq (l : List Notice) : l.flatMap Notice.texts = textsOfNotices l := by
  induction l with
  | nil => rfl
  | cons n l ih =>
    rw [List.flatMap_cons, ih]
    cases h : n.content <;> simp [textsOfNotices, Notice.texts, h]

theorem mem_textsOfRows (s : State) (l : List Showing) (i : Nat) : i ∈ l.flatMap s.rowTexts ↔ i ∈ s.textsOfRows l := by
  simp only [List.mem_flatMap, State.rowTexts, State.textsOfRows, List.mem_append, List.mem_map, List.mem_filterMap, List.mem_cons,
    Option.mem_toList]
  constructor
  · rintro ⟨x, hx, rfl | h⟩
    · exact .inl ⟨x, hx, rfl⟩
    · exact .inr ⟨x, hx, h⟩
  · rintro (⟨x, hx, rfl⟩ | ⟨x, hx, h⟩)
    · exact ⟨x, hx, .inl rfl⟩
    · exact ⟨x, hx, .inr h⟩

/-- The choice reads its groups as sets. -/
theorem ChosenTexts.congr {marked own own' others others' rest l : List Nat} (h : ChosenTexts marked own others rest l)
    (ho : ∀ i, i ∈ own ↔ i ∈ own') (ht : ∀ i, i ∈ others ↔ i ∈ others') : ChosenTexts marked own' others' rest l := by
  have g : ∀ i, textGroup own others i = textGroup own' others' i := fun i => by simp [textGroup, ho, ht]
  have b : TextBefore own others = TextBefore own' others' := by funext i j; simp [TextBefore, g]
  exact ⟨h.few, fun i m => by simpa [ho, ht] using h.wanted i m, b ▸ h.ordered,
    fun i m c n => b ▸ h.first i m (by simpa [ho, ht] using c) n⟩

/-- R141 to R144, R152. -/
theorem normalBody_form (s : State) (p : Nat) : s.NormalForm p (s.panel p) (s.effectiveRows p) (s.normalBody p) where
  rows := List.forall₂_map_right_iff.2 (List.forall₂_same.2 fun x _ => row_entry s _ x)
  noShowings := by simp [State.normalBody]
  notice n h := ⟨_, by simp [State.normalBody, strip_eq_stripOf, h], noticePart_entry s n⟩
  noNotice h := by simp [State.normalBody, strip_eq_stripOf, h]
  texts := by
    refine ⟨_, (chooseTexts_chosen _ _ _ _).congr (fun i => ?_) (mem_textsOfRows s _), by
      simp only [State.normalBody, strip_eq_stripOf, textsOfNotices_eq]; rfl⟩
    rw [List.mem_append, List.mem_append, mem_textsOfRows]
    refine or_congr Iff.rfl ?_
    cases (s.stripOf p)[(s.panel p).noticeIndex]? <;> simp [← textsOfNotices_eq]

/-- R145, R152. -/
theorem takeoverBody_form (s : State) (p : Nat) (n : Notice) : s.TakeoverForm p (s.panel p) n (s.takeoverBody p n) where
  rows := ⟨rfl, rfl⟩
  notice := ⟨_, rfl, noticePart_entry s n⟩
  texts := by
    refine ⟨_, (chooseTexts_chosen _ _ _ _).congr (fun i => ?_) (mem_textsOfRows s _), by
      simp only [State.takeoverBody, strip_eq_stripOf, textsOfNotices_eq]; rfl⟩
    simp [← textsOfNotices_eq]

end Sys2Proof.Machine
end

