-- ==== Sys2Proof/Laws/Tables.lean ====
section
/-! SUPPORT. The tables of State: entries numbered from 1, and live records in ascending key. -/

namespace Sys2Proof.Machine

/-! ### Tables numbered from 1 -/

@[simp] theorem modSlot_length {α : Type} (f : α → α) (l : List α) (n : Nat) : (modSlot f l n).length = l.length := by
  cases n <;> simp [modSlot]

/-- The entry that was changed. -/
theorem slot_modSlot_same {α : Type} (d : α) (f : α → α) (l : List α) (n : Nat) (h1 : 1 ≤ n) (h2 : n ≤ l.length) :
    slot d (modSlot f l n) n = f (slot d l n) := by
  obtain ⟨k, rfl⟩ : ∃ k, n = k + 1 := ⟨n - 1, by omega⟩
  have hk : k < l.length := by omega
  simp [slot, modSlot, List.getD_eq_getElem?_getD, hk]

/-- Every other entry. -/
theorem slot_modSlot_other {α : Type} (d : α) (f : α → α) (l : List α) (n i : Nat) (h : i ≠ n) :
    slot d (modSlot f l n) i = slot d l i := by
  cases n with
  | zero => rfl
  | succ n =>
    cases i with
    | zero => rfl
    | succ i =>
      have hi : n ≠ i := fun e => h (by omega)
      simp [slot, modSlot, List.getD_eq_getElem?_getD, hi]

/-- A change of an entry that the table lacks changes nothing. -/
theorem modSlot_out {α : Type} (f : α → α) (l : List α) (n : Nat) (h : n = 0 ∨ l.length < n) : modSlot f l n = l := by
  cases n with
  | zero => rfl
  | succ n => exact List.modify_eq_self (by omega)

/-- Two changes of one entry are one. -/
theorem modSlot_modSlot {α : Type} (f g : α → α) (l : List α) (n : Nat) :
    modSlot g (modSlot f l n) n = modSlot (fun x => g (f x)) l n := by
  cases n with
  | zero => rfl
  | succ n => exact List.modify_modify_eq f g n l

/-! ### Records by key -/

variable {α : Type} (key : α → Nat)

theorem hasKey_eq_false {k : Nat} {l : List α} : hasKey key k l = false ↔ ∀ x ∈ l, key x ≠ k := by simp [hasKey]

theorem findKey_eq_none {k : Nat} {l : List α} : findKey key k l = none ↔ ∀ x ∈ l, key x ≠ k := by simp [findKey]

theorem findKey_mem {k : Nat} {l : List α} {x : α} (h : findKey key k l = some x) : x ∈ l ∧ key x = k :=
  ⟨List.mem_of_find?_eq_some h, by simpa using List.find?_some h⟩

/-- In a table of distinct keys the record found under a key is the only one. -/
theorem findKey_of_mem {l : List α} (h : Rising (l.map key)) {x : α} (hx : x ∈ l) : findKey key (key x) l = some x := by
  induction l with
  | nil => cases hx
  | cons y l ih =>
    simp only [List.map_cons, List.pairwise_cons] at h
    rcases List.mem_cons.1 hx with rfl | hx
    · simp [findKey]
    · have hlt : key y < key x := h.1 _ (List.mem_map_of_mem hx)
      have hne : ¬ key y = key x := by omega
      simpa [findKey, List.find?_cons, hne] using ih h.2 hx

@[simp] theorem findKey_insertKey_same (x : α) (l : List α) (h : ∀ y ∈ l, key y ≠ key x) :
    findKey key (key x) (insertKey key x l) = some x := by
  induction l with
  | nil => simp [insertKey, findKey]
  | cons y l ih =>
    have hy : ¬ key y = key x := h y (by simp)
    have := ih fun z hz => h z (by simp [hz])
    simp only [insertKey]
    split
    · simp [findKey]
    · simpa [findKey, List.find?_cons, hy] using this

@[simp] theorem findKey_insertKey_other (x : α) (l : List α) (k : Nat) (h : k ≠ key x) :
    findKey key k (insertKey key x l) = findKey key k l := by
  have hx : ¬ key x = k := fun e => h e.symm
  induction l with
  | nil => simp [insertKey, findKey, hx]
  | cons y l ih =>
    simp only [insertKey]
    split
    · simp [findKey, hx]
    · simp only [findKey, List.find?_cons] at ih ⊢
      split <;> simp_all

theorem mem_insertKey {x y : α} {l : List α} : y ∈ insertKey key x l ↔ y = x ∨ y ∈ l := by
  induction l with
  | nil => simp [insertKey]
  | cons z l ih =>
    simp only [insertKey]
    split
    · simp
    · simp [ih, or_left_comm]

@[simp] theorem insertKey_length (x : α) (l : List α) : (insertKey key x l).length = l.length + 1 := by
  induction l with
  | nil => rfl
  | cons y l ih => simp only [insertKey]; split <;> simp [ih]

/-- A record put in its place keeps the keys rising, where its key is new. -/
theorem rising_insertKey {x : α} {l : List α} (h : Rising (l.map key)) (hx : ∀ y ∈ l, key y ≠ key x) :
    Rising ((insertKey key x l).map key) := by
  induction l with
  | nil => simp [insertKey]
  | cons y l ih =>
    have hy : key y ≠ key x := hx y (by simp)
    simp only [List.map_cons, List.pairwise_cons] at h
    simp only [insertKey]
    split
    · rename_i hlt
      simp only [List.map_cons, List.pairwise_cons]
      refine ⟨fun a ha => ?_, h.1, h.2⟩
      rcases List.mem_cons.1 ha with rfl | ha
      · exact hlt
      · exact Nat.lt_trans hlt (h.1 a ha)
    · rename_i hle
      simp only [List.map_cons, List.pairwise_cons]
      refine ⟨fun a ha => ?_, ih h.2 fun z hz => hx z (by simp [hz])⟩
      obtain ⟨z, hz, rfl⟩ := List.mem_map.1 ha
      rcases (mem_insertKey key).1 hz with rfl | hz
      · omega
      · exact h.1 _ (List.mem_map_of_mem hz)

theorem rising_filter {l : List α} (p : α → Bool) (h : Rising (l.map key)) : Rising ((l.filter p).map key) :=
  h.sublist ((List.filter_sublist).map key)

theorem rising_eraseKey {l : List α} (k : Nat) (h : Rising (l.map key)) : Rising ((eraseKey key k l).map key) :=
  rising_filter key _ h

@[simp] theorem findKey_eraseKey_same (k : Nat) (l : List α) : findKey key k (eraseKey key k l) = none := by
  simp [findKey, eraseKey]

@[simp] theorem findKey_eraseKey_other (k i : Nat) (l : List α) (h : i ≠ k) :
    findKey key i (eraseKey key k l) = findKey key i l := by
  simp only [findKey, eraseKey, List.find?_filter]
  congr 1
  funext x
  by_cases hi : key x = i
  · have hk : ¬ i = k := h
    simp [hi, hk]
  · simp [hi]

/-- A change that keeps the keys keeps them rising. -/
theorem map_key_modKey (k : Nat) (f : α → α) (l : List α) (hf : ∀ x, key x = k → key (f x) = k) :
    (modKey key k f l).map key = l.map key := by
  simp only [modKey, List.map_map]
  refine List.map_congr_left fun x _ => ?_
  by_cases h : key x = k
  · simp [h, hf x h]
  · simp [h]

@[simp] theorem modKey_length (k : Nat) (f : α → α) (l : List α) : (modKey key k f l).length = l.length := by simp [modKey]

theorem findKey_modKey_same (k : Nat) (f : α → α) (l : List α) (hf : ∀ x, key x = k → key (f x) = k) :
    findKey key k (modKey key k f l) = (findKey key k l).map f := by
  induction l with
  | nil => rfl
  | cons y l ih =>
    by_cases hk : key y = k
    · simp [findKey, modKey, hk, hf y hk]
    · have e : (key y == k) = false := by simpa using hk
      simpa [findKey, modKey, List.find?_cons, hk, e] using ih

theorem findKey_modKey_other (k i : Nat) (f : α → α) (l : List α) (hf : ∀ x, key x = k → key (f x) = k) (h : i ≠ k) :
    findKey key i (modKey key k f l) = findKey key i l := by
  induction l with
  | nil => rfl
  | cons y l ih =>
    by_cases hk : key y = k
    · have e : (k == i) = false := by simpa using fun e : k = i => h e.symm
      simpa [findKey, modKey, List.find?_cons, hk, hf y hk, e] using ih
    · by_cases hi : key y = i
      · have hk' : ¬ i = k := h
        simp [findKey, modKey, hi, hk']
      · have e : (key y == i) = false := by simpa using hi
        simpa [findKey, modKey, List.find?_cons, hk, e] using ih

end Sys2Proof.Machine
end

