-- ==== Sys2Proof/Laws/Zones.lean ====
section
/-! SUPPORT. What ending plays, judging members and judging hushed marks can change: carousels, plays and panels, and the records
that an outcome raises. -/

namespace Sys2Proof.Machine

/-- Two states that differ in their carousels, plays and panels alone. -/
def OnlyZones (s t : State) : Prop :=
  ∃ cs ps qs, t = { s with carousels := cs, plays := ps, panels := qs }

theorem OnlyZones.refl (s : State) : OnlyZones s s := ⟨_, _, _, rfl⟩

theorem OnlyZones.trans {s t u : State} (h : OnlyZones s t) (k : OnlyZones t u) : OnlyZones s u := by
  obtain ⟨_, _, _, rfl⟩ := h
  obtain ⟨_, _, _, rfl⟩ := k
  exact ⟨_, _, _, rfl⟩

theorem OnlyZones.modCarousel (k : Nat) (f : Carousel → Carousel) (s : State) : OnlyZones s (s.modCarousel k f) := ⟨_, _, _, rfl⟩
theorem OnlyZones.setPlay (p : Nat) (r : Option Play) (s : State) : OnlyZones s (s.setPlay p r) := ⟨_, _, _, rfl⟩
theorem OnlyZones.modPanel (p : Nat) (f : Panel → Panel) (s : State) : OnlyZones s (s.modPanel p f) := ⟨_, _, _, rfl⟩

/-- A fold of changes that keep to the zones keeps to them. -/
theorem OnlyZones.foldl {α : Type} (f : State → α → State) (h : ∀ s x, OnlyZones s (f s x)) (l : List α) (s : State) :
    OnlyZones s (l.foldl f s) := by
  induction l generalizing s with
  | nil => exact .refl s
  | cons x l ih => exact (h s x).trans (ih _)

/-- A stop raises no record (R151). -/
theorem handOutcome_stop (p : Nat) (s : State) : OnlyZones s (handOutcome p .stop s) := by
  unfold handOutcome
  split
  · exact .refl s
  · dsimp only
    split
    · exact (OnlyZones.setPlay p none s).trans (.modCarousel _ _ _)
    · exact .setPlay p none s

theorem stopZone_only (p : Nat) (s : State) : OnlyZones s (stopZone p s) := by
  unfold stopZone endPlay
  split
  · exact .refl s
  · exact (OnlyZones.modPanel p _ s).trans (handOutcome_stop p _)
  · exact (OnlyZones.modPanel p _ s).trans (handOutcome_stop p _)

/-- A membership judged can end a play, and does nothing else (R128). -/
theorem judgeMember_only (p : Nat) (s : State) : OnlyZones s (judgeMember p s) := by
  unfold judgeMember
  split
  · exact .refl s
  · split
    · exact .refl s
    · exact stopZone_only p s

/-- A hushed mark judged can end a play, and does nothing else (R146). -/
theorem judgeHush_only (p : Nat) (s : State) : OnlyZones s (judgeHush p s) := by
  unfold judgeHush
  refine OnlyZones.trans ?_ (judgeMember_only p _)
  split
  · exact (OnlyZones.modPanel p _ s).trans (stopZone_only p _)
  · exact .modPanel p _ s

theorem judgeHushAll_only (s : State) : OnlyZones s (judgeHushAll s) :=
  OnlyZones.foldl (fun t p => judgeHush p t) (fun t p => judgeHush_only p t) panelNumbers s

theorem takeoverChange_only (before : Option Nat) (p : Nat) (s : State) : OnlyZones s (takeoverChange before p s) := by
  unfold takeoverChange
  split
  · exact (stopZone_only p s).trans (judgeHush_only p _)
  · exact judgeHush_only p s
  · exact .refl s
  · exact .refl s

/-- The takeover table judged: every entry is the newest ACTIVE ALERT in scope, and beyond it the zones alone can change (R114). -/
theorem judgeTakeover_only (s : State) :
    OnlyZones { s with notices := { s.notices with takeover := panelNumbers.map s.takeoverDue } } (judgeTakeover s) :=
  OnlyZones.foldl (fun t p => takeoverChange (s.takeover p) p t) (fun t p => takeoverChange_only _ p t) panelNumbers _

/-- HUSH and WAKE set to what they are change nothing (R14). -/
theorem setHushWake_same {s : State} {hush wake : Bool} (h1 : s.cal.hush = hush) (h2 : s.cal.wake = wake) :
    setHushWake hush wake s = s := by
  subst h1 h2
  simp [setHushWake]

/-- A change of HUSH or WAKE raises one HUSH record, and beyond the calendar the zones alone can change (R14). -/
theorem setHushWake_changed {s : State} {hush wake : Bool} (h : ¬ (s.cal.hush = hush ∧ s.cal.wake = wake)) :
    OnlyZones
      { s with
        cal := { s.cal with hush, wake }
        outbox := s.outbox ++ [(.calendar, s.record .hush 0 (hushPair hush wake))] }
      (setHushWake hush wake s) := by
  unfold setHushWake
  rw [if_neg h]
  exact judgeHushAll_only _

end Sys2Proof.Machine
end

