-- ==== Sys2Proof/Tests/Slice0.lean ====
section
/-! SUPPORT. Tests. The smoke test of WellFormed, words of the wire written out from spec/12, worked examples of the spec, and, for
each statement with hypotheses, a state and operands that meet them. Every expected value is the spec's. -/

namespace Sys2Proof.Tests

open Sys2Proof Sys2Proof.Machine

/-! ### Well-formed commands -/

theorem test_malformedMessage_spelling_NOTHING_is_refused :
    (Instr.malformedMessage .a [2, 1]).wellFormed = false := by decide
theorem test_malformedMessage_empty_is_refused : (Instr.malformedMessage .a []).wellFormed = false := by decide
theorem test_malformedMessage_unknown_kind_passes : (Instr.malformedMessage .a [2, 0]).wellFormed = true := by decide
theorem test_headReport_cut_short_is_refused : (Instr.headReport 0 [0xA5, 0, 6, 8, 1, 0, 0, 0, 0, 1]).wellFormed = false := by decide
theorem test_headReport_length_5_is_refused : (Instr.headReport 0 [0xA5, 0, 5, 8, 1, 0, 0, 0, 1, 2]).wellFormed = false := by decide
theorem test_headReport_complete_passes :
    (Instr.headReport 0 [0x17, 0xA5, 0, 6, 8, 1, 0, 0, 0, 0, 1, 2]).wellFormed = true := by decide
theorem test_reportLengthFailure_of_a_good_length_is_refused : (Instr.reportLengthFailure 0 15).wellFormed = false := by decide
theorem test_reportLengthFailure_16_passes : (Instr.reportLengthFailure 0 16).wellFormed = true := by decide
theorem test_setFilter_85_pairs_is_refused :
    (Instr.setFilter ⟨.a, 0⟩ (List.replicate 85 (1, 0))).wellFormed = false := by simp [Instr.wellFormed]
theorem test_putText_251_bytes_is_refused : (Instr.putText ⟨.a, 0⟩ 1 (List.replicate 251 0)).wellFormed = false := by decide +kernel
theorem test_holdExpiry_of_tag_0_is_refused : (Instr.holdExpiry 0).wellFormed = false := by decide

/-! ### Messages written out from the layouts of spec/12 -/

/-- SELL of 4 seats of showing 310: length 5, kind 30 hexadecimal. -/
theorem test_read_SELL : Wire.readTransaction .b [5, 0x30, 0x01, 0x36, 4] = .sell ⟨.b, 0⟩ 310 4 := by decide

/-- HOLD: tag 513, showing 7, 3 seats, 600 seconds, with two surplus bytes. -/
theorem test_read_HOLD :
    Wire.readTransaction .b [9, 0x33, 0x02, 0x01, 0, 7, 3, 0x02, 0x58, 0, 0] = .hold ⟨.b, 2⟩ 513 7 3 600 := by decide

/-- PUBLISH with a delay and a sales-open minute, presence bits 2 and 3. -/
theorem test_read_PUBLISH :
    Wire.readTransaction .a [15, 0x20, 0, 7, 3, 9, 2, 1, 0x04, 0xB0, 0x0C, 15, 0, 0x03, 0x84] =
      .publish ⟨.a, 0⟩
        { id := 7, auditorium := 3, feature := 9, format := 2, start := ⟨1, 1200⟩, runtime := none, capacity := none,
          delay := some 15, salesOpen := some ⟨0, 900⟩, spare := 0 } := by decide

/-- SET TIME to 29 February 2024, 23:59:58. -/
theorem test_read_SET_TIME :
    Wire.readTransaction .a [9, 0x0A, 0x07, 0xE8, 2, 29, 23, 59, 58] = .setTime ⟨.a, 0⟩ ⟨2024, 2, 29, 23, 59, 58⟩ := by decide

/-- POST NOTICE of system code 5 for panels 1 and 12 with a flash, presence bits 0 and 4. -/
theorem test_read_POST_NOTICE :
    Wire.readTransaction .c [12, 0x40, 41, 3, 5, 0, 9, 0x11, 0x08, 0x01, 3, 4] =
      .postNotice ⟨.c, 0⟩
        { id := 41, cls := 3, selector := 5, value := 9, scope := some 0x801, link := none, activation := none, expiry := none,
          flash := some (3, 4), spare := 0 } := by decide

/-- A message whose length disagrees with its kind is no request (R192). -/
theorem test_read_short_SELL : Wire.readTransaction .b [4, 0x30, 0x01, 0x36] = .malformedMessage .b [4, 0x30, 0x01, 0x36] := by
  decide

/-! ### Values of the spec -/

/-- R161's check value. -/
theorem test_crc_of_nine_characters : crc [0x31, 0x32, 0x33, 0x34, 0x35, 0x36, 0x37, 0x38, 0x39] = 0x29B1#16 := by decide +kernel

/-- R1: 1 January 2000 is a Saturday. -/
theorem test_weekday_of_the_first_day : weekdayOf 2000 1 1 = 6 := by decide

/-- R1: the day after 28 February 2000 is a leap day, and 2099 is followed by 2000. -/
theorem test_next_dates : nextDate 2000 2 28 = (2000, 2, 29) ∧ nextDate 2099 12 31 = (2000, 1, 1) := by decide

/-- The worked SET TIMEs of spec/01: from Friday 15 March 2024, 23:40, to Saturday 16 March, 07:15, and from 09:05 back to 05:50. -/
theorem test_deltas :
    ({ Calendar.atPowerOn with year := 2024, month := 3, day := 15, hour := 23, minute := 40 } : Calendar).delta
      ⟨2024, 3, 16, 7, 15, 0⟩ = 455 ∧
    ({ Calendar.atPowerOn with year := 2024, month := 3, day := 16, hour := 9, minute := 5 } : Calendar).delta
      ⟨2024, 3, 16, 5, 50, 0⟩ = -195 ∧ weekdayOf 2024 3 16 = 6 := by decide

/-- R5: before the first day start the base lies below 0. -/
theorem test_business_base : businessBase 0 6 = -1080 ∧ businessBase 2640 6 = 1800 ∧ businessBase 1800 6 = 1800 := by decide

/-- R11: a lobby open from 10:00 to 02:00 is closed at 02:00 and open at 01:59. -/
theorem test_lobby_over_midnight : lobbyClosed 600 120 120 = true ∧ lobbyClosed 600 120 119 = false := by decide

/-- R87: with K at or above L a small auditorium reads FEW at an occupancy of 500. -/
theorem test_few_left : bandTarget 600 900 10 8 500 = .few ∧ bandTarget 600 900 10 0 1000 = .full := by decide

/-- R60, R89: taken before a CLOSED with one hold, the settings' BAND of showing 7 still stands between the HOLD ENDED and the BAND of
the release. -/
theorem test_settings_band_follows_hold_ended (k : Nat) :
    let band (detail : Nat) : Source × EventRecord := (.showing 7, { EventRecord.powerOnReset with kind := .band, detail })
    let ended : Source × EventRecord := (.showing 7, { EventRecord.powerOnReset with kind := .holdEnded })
    joinBand true k [ended, band 0] (band 1) = [ended, band 1, band 0] := by
  intro band ended
  change [ended, band 0].insertIdx (1 + Config.pick k % 1) (band 1) = _
  rw [Nat.mod_one]
  rfl

/-- The worked sequence of spec/07 on keeping the cursor, its drops: 4 to 3 on five entries, 3 to 0 on four. -/
theorem test_cursor_after_drops : cursorDropped 0 4 6 = 3 ∧ cursorDropped 3 3 5 = 3 ∧ cursorDropped 4 3 4 = 3 ∧
    cursorDropped 3 3 3 = 0 := by decide

/-- The worked sequence of spec/08 on a shrinking list: nine rows at 4 a page, then eight. -/
theorem test_paging : pageCountOf 9 4 = 3 ∧ turn 1 0 8 3 = (2, 8) ∧ turn 2 8 8 2 = (0, 8) ∧ turn 0 0 8 2 = (1, 8) := by decide

/-- The worked sequence of spec/07 on a lockstep bank: the fault of clip 310 flips its entry and reports 4406. -/
theorem test_fault_flips_to_the_alternate :
    Entry.afterFault .primary
      { primary := 310, alternate := some 311, usingAlternate := false, disabled := false, length := 30, feature := none,
        daypart := none } =
      ({ primary := 310, alternate := some 311, usingAlternate := true, disabled := false, length := 30, feature := none,
         daypart := none }, 1) := by decide

/-- The worked sequence of spec/10: a reply of 48 bytes stays in the slot where 12 are clocked. -/
theorem test_long_reply_stays :
    let r : Reply := { kind := 7, result := .done, clamped := false, earlierLost := false, data := List.replicate 44 0 }
    let ps : PortState := { role := .desk, slot := some r, chip := .released }
    r.bytes.length = 48 ∧ (clockOut 12 ps).slot = some r ∧ (clockOut 48 ps).slot = none := by decide

/-- R190: the RESET record of a power-on reset, as read. -/
theorem test_reset_record : EventRecord.powerOnReset.bytes = [19, 0, 0, 0, 0, 0, 0, 0, 0, 1] := by decide

/-! ### A state for the witnesses -/

def seats7 : Showing :=
  { id := 7, auditorium := 1, feature := 1, format := 0, start := 2700, runtime := 100, delay := 0, salesOpen := none, cap := 100,
    sold := 10, held := 2, tally := 3, pace := 0, band := .opn, fast := false, oversold := false, state := .onSale, purge := none }

def notice41 : Notice :=
  { id := 41, cls := .info, content := .system 5 9, scope := 0, link := none, activation := none, expiry := none,
    flash := some (3, 4), state := .active, instant := some { m := 2600, second := 0 }, position := some 2, system := false }

def entry310 : Entry :=
  { primary := 310, alternate := some 311, usingAlternate := false, disabled := false, length := 30, feature := none,
    daypart := none }

def ring2 : Carousel := { Carousel.atReset with ring := [entry310, { entry310 with primary := 320 }] }

def cue9 : Cue := { clip := 310, length := 30, token := 9 }

def play1 : Play :=
  { carousel := 1, source := .entry, ref := some 0, clip := 310, kind := .primary, length := 30, roundMark := false }

def lit : Panel :=
  { Panel.atReset with
    profile := { Profile.atReset with enabled := true, carousel := 1 }
    pageCount := 1
    zone := .playing cue9 36000
    lastToken := 9
    current := [1] }

def live : LinkContext :=
  { LinkContext.atReset with
    head := .live
    nextFrame := some 500
    window := some .page
    headRows := some 8
    zonePresent := some true
    generationKnown := true }

/-- A board at 20:00:10 on 14 March 2024 with one of everything: auditorium 1, feature 1, texts 1 and 2, showing 7 with hold 5 on its
last second, notice 41, a carousel of two clips, and a LIVE panel 1 that plays. A frame time of
panel 1 waits. Port A is SCHEDULE, B SALES and C SERVICE. -/
def bench : State :=
  { State.reset with
    cal := { Calendar.atPowerOn with
      year := 2024, month := 3, day := 14, hour := 20, minute := 0, second := 10, clock := .running, m := 2640, d0 := 1800 }
    catalogue :=
      { auditoriums := { defined := true, name := 1, capacity := 100, state := .inService } :: List.replicate 23 Auditorium.undefined
        features := some { title := 1, rating := 0, runtime := 100 } :: List.replicate 127 none
        texts := { present := true, bytes := [65], revision := 1 } :: { present := true, bytes := [66], revision := 1 }
          :: List.replicate 382 TextEntry.absent }
    showings := [seats7]
    holds := [{ tag := 5, showing := 7, count := 2, remaining := 1 }]
    watch := { sales := .current, count := 1, period := 30 }
    notices := { table := [notice41], activation := [41], takeover := List.replicate 12 none }
    carousels := ring2 :: List.replicate 7 Carousel.atReset
    plays := some play1 :: List.replicate 11 none
    panels := lit :: List.replicate 11 Panel.atReset
    links := live :: List.replicate 11 LinkContext.atReset
    ports := { a := PortState.atReset .schedule, b := PortState.atReset .sales, c := PortState.atReset .service }
    pending := [.frameTime 0] }

/-- The bench with its hold and its watch far from their ends. -/
def calm : State :=
  { bench with
    holds := [{ tag := 5, showing := 7, count := 2, remaining := 60 }]
    watch := { sales := .current, count := 30, period := 30 } }

/-- A transaction on the SERVICE port. -/
def svc : Txn := { port := .c, surplus := 0 }

theorem witness_bench_shape : bench.Shape where
  settled := by decide
  auditoriums := by decide
  features := by decide +kernel
  texts := by decide +kernel
  carousels := by decide
  plays := by decide
  panels := by decide
  links := by decide
  takeover := by decide
  showings := by decide
  holds := by decide
  filling := by decide
  closed := by decide
  notices := by decide
  rings := by decide
  queueA := by decide
  queueB := by decide
  queueC := by decide
  freshA := by decide
  freshB := by decide
  freshC := by decide

theorem witness_bench_dated : bench.Dated where
  year := by decide
  month := by decide
  day := by decide
  hour := by decide
  minute := by decide
  second := by decide
  limit := by decide
  unset := by decide

theorem witness_bench_ranged : bench.Ranged where
  h0 := by decide
  hours := by decide
  lead := by decide
  late := by decide
  linger := by decide
  f1 := by decide
  f2 := by decide
  w := by decide
  k := by decide
  dc := by decide
  watch := by decide
  frame := by decide

theorem witness_bench_seated : bench.Seated where
  showings := by decide
  holds := by decide
  sums := by decide
  named := by decide

theorem witness_bench_noticed : bench.Noticed where
  table := by decide
  once := by decide
  active := by
    intro i
    change i ∈ [41] ↔ ∃ n ∈ [notice41], n.id = i ∧ n.state = .active
    simp [notice41, eq_comm]
  takeover := by decide

theorem witness_bench_zoned : bench.Zoned := by
  intro p hp
  simp only [panelNumbers, List.mem_cons, List.not_mem_nil, or_false] at hp
  rcases hp with rfl | rfl | rfl | rfl | rfl | rfl | rfl | rfl | rfl | rfl | rfl | rfl <;>
    exact ⟨by decide, by decide, by decide, by decide, by decide⟩

/-! ### Witnesses: steps, transactions, events and resets -/

theorem witness_StepRunsFrontCommand : bench.pending = .frameTime 0 :: [] ∧ State.reset.pending = [] := by decide

theorem witness_EveryCommandCompletesAndLeavesTheQueue :
    ∀ straps, Instr.flashTick ≠ .powerOnReset straps ∧ Instr.flashTick ≠ .pinReset straps := fun _ => ⟨nofun, nofun⟩

theorem witness_UntakenAndForeignRequestsDoNothing :
    (Wire.fieldsOf (.queryBoard svc) = some (svc, 4, []) ∧ ({ bench with rstn := .asserted .pin } : State).takes .c = false) ∧
    (Wire.fieldsOf (.sell ⟨.a, 0⟩ 7 1) = some (⟨.a, 0⟩, 48, [0, 7, 1]) ∧ bench.takes .a = true ∧ bench.Settled ∧
      (bench.port .a).role ∉ rolesOf 48) := by decide

theorem witness_RefusedRequestsChangeNothing :
    Wire.fieldsOf (.queryHold svc 9) = some (svc, 6, [0, 9]) ∧ 6 ≠ 1 ∧ bench.takes svc.port = true ∧ bench.Settled := by decide

theorem witness_TransactionsWithoutARequest :
    (bench.takes svc.port = true ∧ bench.Settled) ∧ (Instr.malformedMessage .c [2, 0]).wellFormed = true ∧
    (bench.port .c).Fresh := by decide

theorem witness_ReplySlotFollowsTheClockOut :
    (bench.port .a).chip = .released ∧
    (let r : Reply := { kind := 4, result := .done, clamped := false, earlierLost := false, data := [1] }
     4 + r.data.length ≤ 5 ∧ 4 < 4 + r.data.length) ∧
    bench.rstn = .released ∧
    (({ bench with ports := { bench.ports with b := { bench.ports.b with chip := .waiting } } } : State).port .b).chip ≠ .released ∧
    ({ bench with rstn := .asserted .pin } : State).rstn = .asserted .pin ∧
    (let r : Reply := { kind := 4, result := .done, clamped := false, earlierLost := false, data := [1] }
     let tr : Transfer := { reply := some r, received := [], clockedOut := 0 }
     let ps : PortState := { role := .desk, slot := some r, chip := .asserted tr }
     ps.chip = .asserted tr ∧ ({ tr with reply := none } : Transfer).reply = none ∧ tr.reply = some r ∧
       4 + r.data.length ≤ tr.clockedOut + 5 ∧ tr.clockedOut + 4 < 4 + r.data.length) := by decide

theorem witness_SalesWatchHearsAndRunsOut :
    (bench.Settled ∧ (bench.port .a).role ≠ .sales ∧ (bench.port .b).role = .sales ∧ bench.watch.sales = .current) ∧
    (State.reset.Settled ∧ (State.reset.port .b).role = .sales ∧ State.reset.watch.sales = .stale) ∧
    (let s : State := { bench with holds := [], cal := { bench.cal with second := 58 } }
     s.rstn = .released ∧ s.Settled ∧ s.cal.second < 59 ∧ (∀ h ∈ s.holds, 2 ≤ h.remaining) ∧ s.watch.sales = .current ∧
       s.watch.count = 1) := by decide

theorem witness_EventRequestsServeTheQueue :
    Taken svc [.schedule, .sales, .desk, .service] bench ∧
    (let l : List (Byte × Half) := [(19, 0), (19, 0), (19, 0), (19, 0), (0, 7)]
     l.length ≤ 5 ∧ ∀ x ∈ l, x.1.toNat ≤ 19) ∧
    (5 < (List.replicate 6 ((19 : Byte), (0 : Half))).length ∧ ∃ x ∈ [((20 : Byte), (0 : Half))], 19 < x.1.toNat) ∧
    (let r : EventRecord := { EventRecord.powerOnReset with kind := .clipFault }
     EventRecord.powerOnReset.kind = .reset ∧ r.kind ≠ .reset ∧ r.kind ≠ .boardCleared ∧
       accepts .schedule [] r = true ∧ accepts .sales [] r = false ∧ accepts .sales [{ kind := r.kind.code, number := 0 }] r = true) :=
  ⟨by decide, by simp, by decide, by decide⟩

def someEntry : JournalEntry := { kind := .sell, showing := 7, count := 1, sold := 1, held := 0, m := 0, second := 0 }

theorem witness_FullQueueAndJournalDrop :
    (let q : PortQueue := { records := List.replicate 63 EventRecord.powerOnReset, overrun := false, filter := [] }
     q.records.length < 64) ∧
    (let q : PortQueue :=
      { records := EventRecord.powerOnReset :: List.replicate 63 EventRecord.powerOnReset, overrun := false, filter := [] }
     64 ≤ q.records.length ∧ q.records.length ≤ 64) ∧
    (let s : State := { bench with journal := { Journal.empty with filling := List.replicate 127 someEntry } }
     s.Settled ∧ s.journal.filling.length < 128) ∧
    (let s : State := { bench with journal := { Journal.empty with filling := List.replicate 128 someEntry } }
     s.Settled ∧ 128 ≤ s.journal.filling.length) := by decide +kernel

theorem witness_ResetsEmptyTheBlocks :
    bench.ports.a.chip = .released ∧
    ({ bench with ports := { bench.ports with b := { bench.ports.b with chip := .waiting } } } : State).ports.b.chip ≠ .released := by
  decide

theorem witness_ReleaseStartsTheBoard :
    bench.rstn = .released ∧
    (let s : State := { State.reset with rstn := .asserted .powerOn }
     s.rstn = .asserted .powerOn ∧ s.panels.length = 12 ∧ (∀ c ∈ s.panels, c.zone = .idle) ∧ (∀ r ∈ s.plays, r = none) ∧
       ∀ p ∈ panelNumbers, s.takeover p = none) := by decide

/-! ### Witnesses: the calendar and the board -/

theorem witness_SecondEventCountsDown :
    let s : State := { calm with cal := { calm.cal with second := 58 } }
    s.rstn = .released ∧ s.Settled ∧ s.cal.second < 59 ∧ (∀ h ∈ s.holds, 2 ≤ h.remaining) ∧
      (s.watch.sales = .stale ∨ 2 ≤ s.watch.count) ∧ (s.panel (panelOf 0)).profile.enabled = true ∧
      ((s.panel (panelOf 0)).pageCount = 1 ∨ (s.panel (panelOf 0)).noticeCount = 1) := by decide

/-- The calm bench at the last second of 23:59, M at its limit. -/
def brink : State := { calm with cal := { calm.cal with hour := 23, minute := 59, second := 59, m := 1048575 } }

theorem witness_SecondEventCountsDown_carry :
    (brink.Dated ∧ brink.rstn = .released ∧ brink.Settled ∧ brink.cal.second = 59 ∧ (∀ h ∈ brink.holds, 2 ≤ h.remaining) ∧
      (brink.watch.sales = .stale ∨ 2 ≤ brink.watch.count)) ∧
    ({ brink with cal := { brink.cal with held := true } } : State).cal.held = true ∧
    ({ brink with cal := { Calendar.atPowerOn with second := 59 } } : State).cal.clock = .unset ∧
    ({ brink with rstn := .asserted .powerOn } : State).rstn = .asserted .powerOn ∧
    (let s : State := { brink with rstn := .asserted .pin }
     s.rstn = .asserted .pin ∧ s.cal.second = 59 ∧ s.cal.clock = .running ∧ s.cal.held = false ∧ s.cal.m = 1048575) ∧
    (let s : State := { brink with rstn := .asserted .pin, cal := { brink.cal with second := 58, m := 1048574 } }
     s.rstn = .asserted .pin ∧ s.cal.second < 59 ∧ s.cal.m < 1048575) :=
  ⟨⟨⟨by decide, by decide, by decide, by decide, by decide, by decide, by decide, by decide⟩, by decide⟩, by decide⟩

def expiring : State := { bench with watch := calm.watch }

theorem witness_HoldExpiryEndsTheHold :
    expiring.Seated ∧ expiring.rstn = .released ∧ expiring.Settled ∧ expiring.cal.second < 59 ∧
    (∃ h, expiring.hold? (5 : Half).toNat = some h ∧ h.remaining = 1 ∧ (∀ g ∈ expiring.holds, g ≠ h → 2 ≤ g.remaining) ∧
      expiring.showing? h.showing = some seats7) ∧
    (expiring.watch.sales = .stale ∨ 2 ≤ expiring.watch.count) :=
  ⟨⟨witness_bench_seated.1, witness_bench_seated.2, witness_bench_seated.3, witness_bench_seated.4⟩, by decide, by decide, by decide,
    ⟨_, rfl, by decide, by decide, rfl⟩, by decide⟩

/-- The bench a second before midnight. -/
def late : State := { calm with cal := { calm.cal with hour := 23, minute := 59, second := 59, m := 2879 } }

theorem witness_MinuteEventAdvancesTheBoardMinute :
    late.Dated ∧ late.rstn = .released ∧ late.Settled ∧ late.cal.clock = .running ∧ late.cal.held = false ∧
    late.cal.m < 1048575 ∧ late.cal.second = 59 ∧ late.cal.hour = 23 ∧ late.cal.minute = 59 :=
  ⟨⟨by decide, by decide, by decide, by decide, by decide, by decide, by decide, by decide⟩, by decide⟩

/-- A showing that the minute event frees, and, an hour and more before it starts, one that it leaves ON SALE. -/
theorem witness_MinuteEventAdvancesTheBoardMinute_showings :
    late.Seated ∧ late.showings = [seats7] ∧ (∀ h ∈ late.holds, h.showing = seats7.id → 2 ≤ h.remaining) ∧
    seats7.FreedAt late.life (late.cal.m + 1) ∧ ¬ seats7.FreedAt late.life 2641 ∧ seats7.restAt late.life 2641 = .onSale := by
  refine ⟨⟨witness_bench_seated.1, by decide, by decide, by decide⟩, by decide, by decide,
    ⟨.inl (by decide), 2805, by decide, by decide⟩, ?_, by decide⟩
  rintro ⟨h | h, -⟩ <;> exact absurd h (by decide)

/-- The bench a second before a midnight at which the day starts, notice 42 becomes due and notice 43 runs out. -/
def turning : State :=
  { late with
    cal := { late.cal with h0 := 0 }
    notices :=
      { table := [notice41, { notice41 with id := 42, activation := some 2880, state := .pending, instant := none, position := none },
          { notice41 with id := 43, expiry := some 2880 }]
        activation := [41, 43]
        takeover := List.replicate 12 none } }

theorem witness_MinuteEventAdvancesTheBoardMinute_notices :
    turning.Noticed ∧ (turning.cal.m + 1) % 1440 = 60 * turning.cal.h0 ∧ (turning.notices.table.map Notice.link) = [none, none, none] ∧
    (notice41.state = .active ∧ ∀ e, notice41.expiry = some e → turning.cal.m + 1 < e) ∧
    (turning.notices.table.map Notice.activation) = [none, some (turning.cal.m + 1), none] ∧
    (turning.notices.table.map Notice.expiry) = [none, none, some (turning.cal.m + 1)] := by
  refine ⟨⟨by decide, by decide, ?_, by decide⟩, by decide, by decide, ⟨by decide, nofun⟩, by decide, by decide⟩
  intro i
  change i ∈ [41, 43] ↔ ∃ n ∈ turning.notices.table, n.id = i ∧ n.state = .active
  simp [turning, notice41, eq_comm]

theorem witness_ClockLimitHoldsTheBoardMinute :
    let s : State := { calm with cal := { late.cal with m := 1048575 }, watch := Watch.atReset }
    s.rstn = .released ∧ s.Settled ∧ s.cal.clock = .running ∧ s.cal.held = false ∧ s.cal.m = 1048575 ∧ s.cal.second = 59 ∧
      (∀ h ∈ s.holds, 2 ≤ h.remaining) ∧ s.watch.sales = .stale := by decide

theorem witness_SetTimeSetsTheBoardMinute :
    Taken svc [.schedule, .service] bench ∧ bench.Ranged ∧ bench.Seated ∧
    (realInstant ⟨2024, 2, 29, 23, 59, 59⟩ = true ∧ bench.cal.held = false ∧
      ({ bench with cal := Calendar.atPowerOn } : State).cal.clock = .unset) ∧
    (bench.cal.clock = .running ∧ realInstant ⟨2024, 3, 21, 20, 0, 0⟩ = true ∧
      bench.cal.delta ⟨2024, 3, 21, 20, 0, 0⟩ = 10080 ∧ bench.cal.delta ⟨2024, 3, 14, 19, 0, 0⟩ = -60 ∧
      0 ≤ (bench.cal.m : Int) + -60 ∧ (bench.cal.m : Int) + 10080 ≤ 1048575) :=
  ⟨by decide, witness_bench_ranged, witness_bench_seated, by decide, by decide⟩

/-- A SET TIME into the minute that follows: D0 rises, notice 41 stays, 42 becomes due and 43 runs out. -/
theorem witness_SetTimeSetsTheBoardMinute_forward :
    turning.Noticed ∧ Taken svc [.schedule, .service] turning ∧ turning.cal.h0 ≤ 23 ∧ turning.cal.held = false ∧
    turning.cal.clock = .running ∧ turning.cal.delta ⟨2024, 3, 15, 0, 0, 0⟩ = 1 ∧ turning.cal.m + 1 = 2880 ∧
    turning.cal.d0 < businessBase 2880 turning.cal.h0 :=
  ⟨witness_MinuteEventAdvancesTheBoardMinute_notices.1, by decide⟩

/-- R9: from Thursday 14 March 2024, 20:00, to Thursday 21 March, 02:00, with a day start at 06:00: one DAY START, whose business day began
on Wednesday. -/
theorem test_day_start_of_a_jump :
    (match exec (.setTime svc ⟨2024, 3, 21, 2, 0, 0⟩) { bench with showings := [], holds := [] } with
      | .next t => (t.queues.c.records.filter fun r => r.kind == .dayStart).map fun r => (r.m, r.detail)
      | _ => []) = [(11640, 3)] := by decide +kernel

theorem witness_WakeLightsThePanels :
    Taken svc [.desk, .service] bench ∧ bench.Shape ∧ bench.cal.wake = false ∧
    (let s : State := { bench with cal := { bench.cal with wake := true } }
     Taken svc [.desk, .service] s ∧ s.Shape ∧ s.cal.wake = true) := by
  have h := witness_bench_shape
  exact ⟨by decide, h, by decide, by decide,
    ⟨h.1, h.2, h.3, h.4, h.5, h.6, h.7, h.8, h.9, h.10, h.11, h.12, h.13, h.14, h.15, h.16, h.17, h.18, h.19, h.20, h.21⟩, by decide⟩

def noSettings : BoardFields :=
  { h0 := none, openMin := none, closeMin := none, lead := none, late := none, linger := none, f1 := none, f2 := none, w := none,
    k := none, dc := none, watch := none, frame := none, spare := 0 }

/-- New hours, an H0 above its range, an F1 that raises the stored F2, and a frame period between two steps of 50. -/
def someSettings : BoardFields :=
  { noSettings with h0 := some 24, openMin := some 600, closeMin := some 120, f1 := some 950, frame := some 215 }

theorem witness_SetBoardStoresTheSettings :
    bench.Ranged ∧ Taken svc [.schedule, .service] bench ∧ noSettings.spare = 0 ∧ Wire.boardBytes noSettings = [0, 0] ∧
    someSettings.spare = 0 ∧ (∃ x, someSettings.h0 = some x ∧ 23 < x.toNat) ∧ bench.cal.h0 ≠ 23 ∧ bench.cal.clock = .running ∧
    bench.cal.held = false ∧ (600 : Half).toNat ≠ bench.cal.openMin ∧ bench.figure.f2 ≤ (950 : Half).toNat :=
  ⟨witness_bench_ranged, by decide, by decide, by decide, by decide, ⟨_, rfl, by decide⟩, by decide⟩

/-- A SET BOARD that changes the lifecycle settings, with a showing that it takes into SEATING, and one that changes F1 alone. -/
theorem witness_SetBoardStoresTheSettings_showings :
    bench.Seated ∧ (60 : Byte).toNat ≠ bench.life.lead ∧ (950 : Half).toNat ≠ bench.figure.f1 ∧
    seats7.restAt { bench.life with lead := 60 } bench.cal.m = .seating ∧
    ¬ seats7.FreedAt { bench.life with lead := 60 } bench.cal.m := by
  refine ⟨witness_bench_seated, by decide, by decide, by decide, ?_⟩
  rintro ⟨h | h, -⟩ <;> exact absurd h (by decide)

theorem witness_BoardClearEmptiesTheDay : Taken svc [.service] bench := by decide

/-! ### Witnesses: the Catalogue and the showings -/

/-- The bench with no showing and no hold. -/
def bare : State := { bench with showings := [], holds := [] }

theorem witness_CatalogueRequestsChangeOneEntry :
    (Taken svc [.schedule, .service] bare ∧ Taken svc [.schedule, .desk, .service] bare ∧ 1 ≤ (24 : Byte).toNat ∧
      (24 : Byte).toNat ≤ 24 ∧ (bare.text (1 : Half).toNat).present = true) ∧
    ((bare.auditorium 1).defined = true ∧ ∀ x ∈ bare.showings, x.auditorium ≠ 1) ∧
    ((bare.feature? 1).isSome = true ∧ (∀ x ∈ bare.showings, x.feature ≠ 1) ∧
      ∀ c ∈ bare.carousels, ∀ e ∈ c.ring, e.feature ≠ some 1) := by decide

theorem witness_TextRequestsChangeOneText :
    (Taken svc [.schedule, .desk, .service] bench ∧ (bench.port svc.port).role ≠ .schedule ∧
      (bench.port svc.port).role ≠ .desk ∧ 1 ≤ (384 : Half).toNat ∧ (384 : Half).toNat ≤ 384 ∧
      (List.replicate 64 (65 : Byte)).length ≤ 64) ∧
    ((bench.text 2).present = true ∧ (∀ a ∈ bench.catalogue.auditoriums, a.defined = true → a.name ≠ 2) ∧
      (∀ f ∈ bench.catalogue.features, ∀ x, f = some x → x.title ≠ 2) ∧
      ∀ n ∈ bench.notices.table, n.content ≠ .text 2) := by
  refine ⟨by decide, by decide +kernel, by decide, ?_, by decide⟩
  intro f hf x hx
  subst hx
  rcases List.mem_cons.1 hf with h | h
  · cases h; decide
  · exact absurd (List.eq_of_mem_replicate h) nofun

def publish9 : PublishFields :=
  { id := 9, auditorium := 1, feature := 1, format := 0, start := ⟨0, 1000⟩, runtime := none, capacity := none, delay := some 5,
    salesOpen := some ⟨0, 900⟩, spare := 0 }

theorem witness_PublishCreatesTheShowing :
    Taken svc [.schedule, .service] bench ∧ bench.publishRefusal publish9 = none ∧
    bench.publishRefusal { publish9 with delay := none, salesOpen := none } = none := by decide +kernel

def move7 : MoveFields :=
  { id := 7, auditorium := none, start := some ⟨0, 1000⟩, capacity := none, salesOpen := none, spare := 0 }

theorem witness_MoveAmendsTheShowing :
    Taken svc [.schedule, .service] bench ∧ bench.moveRefusal move7 = none ∧ bench.showing? move7.id.toNat = some seats7 ∧
    bench.moveRefusal { move7 with capacity := some 50 } = none := by decide +kernel

theorem witness_DelayAmendsTheShowing :
    Taken svc [.schedule, .desk, .service] bench ∧ (7 : Half).toNat ≠ 0 ∧ bench.showing? (7 : Half).toNat = some seats7 ∧
    (seats7.state = .planned ∨ seats7.state = .onSale ∨ seats7.state = .seating) ∧
    seats7.start + min 180 (10 : Byte).toNat + seats7.runtime ≤ 1048575 ∧
    bench.cal.m < seats7.start + min 180 (10 : Byte).toNat ∧ bench.delayedNotice (7 : Half).toNat = none ∧
    bench.notices.table.length < 32 := by decide

/-- The bench with the DELAYED notice of showing 7, at a board minute. -/
def delayedAt (m : Nat) : State :=
  { bench with
    cal := { bench.cal with m }
    showings := [{ seats7 with delay := 180 }]
    notices :=
      { table := [{ notice41 with id := 255, cls := .showing, content := .system 1 180, link := some 7, flash := none,
                                  position := none, system := true }]
        activation := [255]
        takeover := List.replicate 12 none } }

theorem witness_delayed_noticed : (delayedAt 2640).Noticed where
  table := by decide
  once := by decide
  active := by
    intro i
    change i ∈ [255] ↔ ∃ n ∈ (delayedAt 2640).notices.table, n.id = i ∧ n.state = .active
    simp [delayedAt, notice41, eq_comm]
  takeover := by decide

theorem witness_CancelReleasesTheShowing_notice :
    (delayedAt 2640).Noticed ∧ (delayedAt 2640).Seated ∧ Taken svc [.schedule, .desk, .service] (delayedAt 2640) ∧
    ((delayedAt 2640).delayedNotice (7 : Half).toNat).map Notice.id = some 255 ∧
    ((delayedAt 2640).showing? (7 : Half).toNat).map Showing.state = some .onSale :=
  ⟨witness_delayed_noticed, ⟨by decide, by decide, by decide, by decide⟩, by decide⟩

/-- A DELAY to 0 of a record whose E comes to lie above M, and at or below M by 40 minutes, by the runtime, and past the purge. -/
theorem witness_DelayAmendsTheShowing_past :
    let e := seats7.start + min 180 (0 : Byte).toNat
    (delayedAt 2640).Noticed ∧ ((delayedAt 2640).delayedNotice 7).isSome = true ∧ 2640 < e ∧ (0 : Byte).toNat = 0 ∧
    (e + (delayedAt 2740).life.late ≤ 2740 ∧ 2740 < e + seats7.runtime) ∧
    (e + seats7.runtime ≤ 2802 ∧ 2802 < e + seats7.runtime + (delayedAt 2802).life.linger) ∧
    e + seats7.runtime + (delayedAt 2805).life.linger ≤ 2805 ∧
    (∀ m ∈ [2740, 2802, 2805], Taken svc [.schedule, .desk, .service] (delayedAt m) ∧
      (delayedAt m).showing? (7 : Half).toNat = some { seats7 with delay := 180 }) :=
  ⟨witness_delayed_noticed, by decide⟩

/-- R54: the reply of a DELAY that frees its record still holds E, here board minute 2700, and no notice: the bytes after the state. -/
theorem test_delay_replies_for_a_freed_record :
    (match exec (.delay svc 7 0) (delayedAt 2805) with
      | .next t => (t.showing? 7, (t.port .c).slot.map fun r => r.data.drop 1)
      | _ => (none, none)) = (none, some [0, 10, 140, 0, 0]) := by decide +kernel

/-- R93: a MOVE that carries the stored start keeps the fast flag, and one that changes it recomputes the flag. -/
theorem test_move_to_the_same_start :
    let s : State := { bench with showings := [{ seats7 with fast := true }] }
    let fast := fun minute : Half => match exec (.move svc { move7 with start := some ⟨0, minute⟩ }) s with
      | .next t => (t.showing? 7).map Showing.fast
      | _ => none
    fast 900 = some true ∧ fast 1000 = some false := by decide +kernel

theorem witness_SetCapacityRecountsTheShowing :
    Taken svc [.schedule, .service] bench ∧ (7 : Half).toNat ≠ 0 ∧ bench.showing? (7 : Half).toNat = some seats7 ∧
    seats7.state ≠ .ended ∧ seats7.state ≠ .cancelled := by decide

theorem witness_CancelReleasesTheShowing :
    bench.Seated ∧ Taken svc [.schedule, .desk, .service] bench ∧ (7 : Half).toNat ≠ 0 ∧
    bench.showing? (7 : Half).toNat = some seats7 ∧ seats7.state ≠ .ended ∧ seats7.state ≠ .cancelled :=
  ⟨witness_bench_seated, by decide⟩

theorem witness_JudgedShowingIsAtRest : (judgeShowing lifeSteps 7 bench).showing? 7 = some seats7 := by decide +kernel

/-! ### Witnesses: seats, the journal and the availability figure -/

theorem witness_SeatSalesChangeTheCounts :
    Taken svc [.sales, .service] bench ∧ (7 : Half).toNat ≠ 0 ∧ (255 : Byte).toNat ≠ 0 ∧
    bench.showing? (7 : Half).toNat = some seats7 ∧ (bench.auditorium seats7.auditorium).state = .inService ∧
    seats7.state = .onSale := by decide

theorem witness_HoldGrantsSeats :
    Taken svc [.sales, .service] bench ∧ (6 : Half).toNat ≠ 0 ∧ (7 : Half).toNat ≠ 0 ∧ (255 : Byte).toNat ≠ 0 ∧
    bench.showing? (7 : Half).toNat = some seats7 ∧ (bench.auditorium seats7.auditorium).state = .inService ∧
    seats7.state = .onSale ∧ (∀ h ∈ bench.holds, h.tag ≠ (6 : Half).toNat) ∧ bench.holds.length < 96 ∧
    seats7.sold + seats7.held < seats7.cap := by decide

theorem witness_ConfirmAndReleaseEndTheHold :
    Taken svc [.sales, .service] bench ∧ (5 : Half).toNat ≠ 0 ∧ (1 : Byte).toNat ≠ 0 ∧
    (∃ h, bench.hold? (5 : Half).toNat = some h ∧ bench.showing? h.showing = some seats7) :=
  ⟨by decide, by decide, by decide, _, rfl, rfl⟩

theorem witness_JournalRequestsSwapAndRead : Taken svc [.desk, .service] bench ∧ (127 : Byte).toNat ≤ 127 ∧ 127 < (128 : Byte).toNat := by decide

theorem witness_SeatsLeftAndOccupancy : (0 : Nat) = 0 ∧ (1500 : Nat) ≠ 0 ∧ (1500 : Nat) ≤ 1500 := by decide

theorem witness_BandMovesBetweenItsTargets :
    let f := FigureSettings.atReset
    let up := fun x : Showing => risingTarget f x.cap x.sold x.held
    let down := fun x : Showing => fallingTarget f x.cap x.sold x.held
    let x : Showing := { seats7 with sold := 98 }
    let y : Showing := { seats7 with band := .full }
    (x.band.code < (up x).code) ∧ ((up y).code ≤ y.band.code ∧ (down y).code < y.band.code) ∧
    ((up seats7).code ≤ seats7.band.code ∧ seats7.band.code ≤ (down seats7).code) := by decide

theorem witness_PaceFollowsTheTally :
    seats7.state = .onSale ∧ ({ seats7 with state := .closed } : Showing).state = .closed ∧
    ({ seats7 with pace := 4087, tally := 255 } : Showing).pace ≤ 4087 := by decide

/-! ### Witnesses: notices -/

def post9 : NoticeFields :=
  { id := 9, cls := 3, selector := 5, value := 9, scope := some 0xFFF, link := none, activation := none,
    expiry := some ⟨0, 1000⟩, flash := some (3, 4), spare := 0 }

theorem witness_PostNoticeCreatesTheNotice :
    Taken svc [.desk, .service] bench ∧ bench.postRefusal post9 = none ∧ bench.notices.table.length < 32 ∧
    bench.postRefusal { post9 with activation := some ⟨0, 900⟩ } = none := by decide +kernel

/-- The bench with 32 notices of class INFO, all ACTIVE. -/
def crowded : State :=
  { bench with notices :=
      { table := (List.range' 100 32).map fun i => { notice41 with id := i }
        activation := List.range' 100 32
        takeover := List.replicate 12 none } }

theorem witness_crowded_noticed : crowded.Noticed where
  table := by decide +kernel
  once := by decide +kernel
  active := by
    intro i
    change i ∈ List.range' 100 32 ↔
      ∃ n ∈ (List.range' 100 32).map fun i => ({ notice41 with id := i } : Notice), n.id = i ∧ n.state = .active
    constructor
    · exact fun h => ⟨_, List.mem_map_of_mem h, rfl, rfl⟩
    · rintro ⟨n, hn, rfl, -⟩
      obtain ⟨j, hj, rfl⟩ := List.mem_map.1 hn
      exact hj
  takeover := by decide +kernel

theorem witness_AlertDisplacesTheLeastNotice :
    crowded.Noticed ∧ Taken svc [.desk, .service] crowded ∧ crowded.postRefusal post9 = none ∧
    32 ≤ crowded.notices.table.length := ⟨witness_crowded_noticed, by decide +kernel⟩

/-- The bench with a DELAYED notice linked to an id that no live showing has. -/
def strayed : State :=
  { bench with notices :=
      { table := [{ notice41 with link := some 9, system := true }], activation := [41], takeover := List.replicate 12 none } }

/-- A PUBLISH with a delay that finds a place for its notice, one that finds the table full, and one that finds a notice linked to its
id already. -/
theorem witness_PublishCreatesTheShowing_notice :
    (bench.Noticed ∧ 0 < min 180 (5 : Byte).toNat ∧ bench.delayedNotice 9 = none ∧ bench.notices.table.length < 32 ∧
      bench.notice? 255 = none) ∧
    (crowded.Noticed ∧ crowded.publishRefusal publish9 = none ∧ crowded.delayedNotice 9 = none ∧
      32 ≤ crowded.notices.table.length) ∧
    (strayed.Noticed ∧ strayed.publishRefusal publish9 = none ∧ (strayed.delayedNotice 9).map Notice.id = some 41) := by
  refine ⟨⟨witness_bench_noticed, by decide⟩, ⟨witness_crowded_noticed, by decide +kernel⟩, ⟨by decide, by decide, ?_, by decide⟩,
    by decide +kernel⟩
  intro i
  change i ∈ [41] ↔ ∃ n ∈ strayed.notices.table, n.id = i ∧ n.state = .active
  simp [strayed, notice41, eq_comm]

theorem witness_WithdrawNoticeFreesTheNotice :
    Taken svc [.desk, .service] bench ∧ (41 : Byte).toNat ≠ 0 ∧ bench.notice? (41 : Byte).toNat = some notice41 := by decide

theorem witness_FlashTickTurnsTheRhythm :
    bench.core.nextTick = some 100 ∧
    ({ bench with core := { now := 0, nextTick := none } } : State).core.nextTick = none ∧
    (let x : Notice := { notice41 with position := some 6 }
     x.state = .active ∧ x.flash = some (3, 4) ∧ x.position = some 6 ∧ 6 < 3 + 4) ∧
    ({ notice41 with flash := none } : Notice).flash = none ∧
    ({ notice41 with state := .pending } : Notice).state = .pending := by decide

/-! ### Witnesses: carousels, panels and pages -/

def entryAt (placement position : Byte) : EntryFields :=
  { carousel := 1, placement, position, primary := 330, length := 40, alternate := none, feature := some 1,
    daypart := some (600, 1080), spare := 0 }

theorem witness_PutEntryPlacesTheEntry :
    bench.Shape ∧ Taken svc [.schedule, .service] bench ∧ bench.entryRefusal (entryAt 0 0) = none ∧
    bench.entryRefusal (entryAt 1 2) = none ∧ bench.entryRefusal (entryAt 2 1) = none :=
  ⟨witness_bench_shape, by decide +kernel⟩

theorem witness_DropEntryRemovesTheEntry :
    bench.Shape ∧ Taken svc [.schedule, .service] bench ∧ 1 ≤ (1 : Byte).toNat ∧ (1 : Byte).toNat ≤ 8 ∧
    (1 : Byte).toNat < (bench.carousel (1 : Byte).toNat).ring.length ∧
    ((0 : Byte).toNat = 0 ∧ 8 < (9 : Byte).toNat ∧ 31 < (32 : Byte).toNat) ∧
    ((8 : Byte).toNat ≤ 8 ∧ (31 : Byte).toNat ≤ 31 ∧ (bench.carousel (1 : Byte).toNat).ring.length ≤ (2 : Byte).toNat) :=
  ⟨witness_bench_shape, by decide⟩

def toLockstep : CarouselFields :=
  { carousel := 1, mode := some 1, fallback := some 4095, length := some 600, horizon := some 29, spare := 0 }

theorem witness_SetCarouselStoresTheSettings :
    bench.Shape ∧ Taken svc [.schedule, .service] bench ∧ toLockstep.spare = 0 ∧ 1 ≤ toLockstep.carousel.toNat ∧
    toLockstep.carousel.toNat ≤ 8 ∧ (∀ m, toLockstep.mode = some m → m.toNat ≤ 1) ∧
    (∀ c, toLockstep.fallback = some c → c.toNat ≤ 4095) ∧ Mode.lockstep ≠ (bench.carousel 1).mode ∧
    bench.play? 1 = some play1 ∧ play1.carousel = 1 :=
  ⟨witness_bench_shape, by decide, by decide, by decide, by decide, fun m h => by cases h; decide, fun c h => by cases h; decide,
    by decide, by decide, by decide⟩

theorem witness_ScanFindsTheFirstEligible :
    ring2.cursor < ring2.ring.length ∧ bench.scan ring2 = some (0, entry310) ∧
    ∀ d ∈ ring2.ring, bench.eligible ring2.horizon { d with disabled := true } = false := by decide

def panelSet (panel enabled : Byte) : PanelFields :=
  { panel, enabled, layout := 1, auditoriums := 1, featureA := 1, featureB := 0, rows := 16, pageDwell := 3, noticeDwell := 30,
    carousel := 8, alwaysLit := 1 }

theorem witness_SetPanelStoresTheProfile :
    bench.Shape ∧ Taken svc [.schedule, .service] bench ∧
    (panelMalformed (panelSet 12 1) = false ∧ (bench.panel 12).profile.enabled = false) ∧
    (panelMalformed (panelSet 1 0) = false ∧ (bench.panel 1).profile.enabled = true) ∧
    (panelMalformed (panelSet 1 1) = false ∧ (bench.panel 1).profile.enabled = decide ((1 : Byte) = 1)) :=
  ⟨witness_bench_shape, by decide⟩

theorem witness_RowListStandsInDisplayOrder :
    Rising (bench.showings.map Showing.id) ∧ seats7.id ≠ ({ seats7 with id := 8 } : Showing).id := by decide

theorem test_one_play (p : Nat) (r : Play) (h : slot none (some play1 :: List.replicate 11 none) p = some r) : p = 1 ∧ r = play1 := by
  rcases p with _ | _ | p
  · simp [slot] at h
  · exact ⟨rfl, (Option.some.inj h).symm⟩
  · have e : (List.replicate 11 (none : Option Play))[p]?.getD none = none := by
      rw [List.getElem?_replicate]; split <;> rfl
    exact absurd (e.symm.trans h) nofun

theorem witness_bench_profiled : bench.Profiled := by
  intro c hc
  rcases List.mem_cons.1 hc with rfl | h
  · exact ⟨by decide, by decide, by decide, by decide, by decide, by decide⟩
  · rw [List.eq_of_mem_replicate h]
    exact ⟨by decide, by decide, by decide, by decide, by decide, by decide⟩

theorem witness_bench_playsFit : bench.PlaysFit := by
  intro p r h
  obtain ⟨rfl, rfl⟩ := test_one_play p r h
  decide

theorem witness_FrameTimeComposesAPage :
    bench.Shape ∧ bench.Settled ∧ bench.Profiled ∧ (bench.link (panelOf 0)).head = .live ∧
    (bench.link (panelOf 0)).nextFrame = some 500 ∧ (bench.link (panelOf 0)).headRows = some 8 :=
  ⟨witness_bench_shape, by decide, witness_bench_profiled, by decide⟩

/-- The bench with notice 41 an ALERT that has taken panel 1 over. -/
def alerted : State :=
  { bench with notices :=
      { table := [{ notice41 with cls := .alert }], activation := [41], takeover := some 41 :: List.replicate 11 none } }

theorem witness_FrameTimeComposesAPage_takeover :
    alerted.Shape ∧ alerted.Settled ∧ alerted.Profiled ∧ alerted.takeover 1 = some 41 ∧
    alerted.notice? 41 = some { notice41 with cls := .alert } ∧ (alerted.link (panelOf 0)).head = .live := by
  have h := witness_bench_shape
  exact ⟨⟨h.1, h.2, h.3, h.4, h.5, h.6, h.7, h.8, by decide, h.10, h.11, h.12, h.13, by decide, h.15, h.16, h.17, h.18, h.19, h.20,
    h.21⟩, by decide, witness_bench_profiled, by decide⟩

/-- What panel 1's next frame carries: the rows' ids with D and the more mark, the notice with its ON state, the texts with their
revisions. -/
def shown (s : State) : List (Nat × Nat × Bool) × Option (Nat × Bool) × List (Nat × Nat) :=
  match exec (.frameTime 0) s with
  | .next t =>
    match (t.link 1).lastFrame with
    | some (.page _ b) => (b.rows.map fun y => (y.id, y.displayed, y.more), b.notice.map fun e => (e.id, e.on),
        b.texts.map fun x => (x.id, x.revision))
    | _ => ([], none, [])
  | _ => ([], none, [])

/-- R94, R113, R142 to R145: showing 7 has 100 - 10 - 2 seats left, and notice 41 stands at position 2 of on-hold 3; a takeover frame
carries its ALERT and no row. -/
theorem test_what_a_frame_carries :
    shown bench = ([(7, 88, false)], some (41, true), []) ∧ shown alerted = ([], some (41, true), []) := by decide +kernel

/-- R152's worked sequence: the frame's own texts before those of the other page, the current ones skipped. -/
theorem test_chosen_texts : ChosenTexts [12, 14, 118, 300] [12, 14, 40, 118, 300] [77] [] [40, 77] where
  few := by decide
  wanted := by decide
  ordered := by decide
  first := by
    intro i hm hi hl
    simp only [List.mem_cons, List.not_mem_nil, or_false, not_or] at hm hi hl
    omega

/-- The bench with panel 1's zone IDLE, about to take from a carousel. -/
def taking (c : Carousel) : State :=
  { bench with
    carousels := c :: List.replicate 7 Carousel.atReset
    plays := List.replicate 12 none
    panels := { lit with zone := .idle } :: List.replicate 11 Panel.atReset }

/-- A SPREAD take and a LOCKSTEP take that find an entry, and a take from an empty carousel that turns DRY. -/
theorem witness_FrameTimeComposesAPage_takes :
    ((taking ring2).panel 1).zone = .idle ∧ (taking ring2).member 1 1 = true ∧ ring2.mode = .spread ∧
    (taking ring2).scan ring2 = some (0, entry310) ∧
    (let c : Carousel := { ring2 with mode := .lockstep }
     (taking c).member 1 1 = true ∧ c.round = none ∧ (taking c).scan c = some (0, entry310)) ∧
    (let c : Carousel := { Carousel.atReset with outcome := .found }
     (taking c).member 1 1 = true ∧ (taking c).scan c = none ∧ c.fallback = none ∧ c.outcome = .found) := by decide

/-! ### Witnesses: links -/

/-- The bench with another first link. -/
def withLink (l : LinkContext) : State := { bench with links := l :: List.replicate 11 LinkContext.atReset }

theorem witness_FrameTimeCallsForTheHead :
    ((withLink { live with head := .seeking }).Settled ∧ ((withLink { live with head := .seeking }).link (panelOf 0)).head = .seeking ∧
      ((withLink { live with head := .seeking }).link (panelOf 0)).nextFrame = some 500) ∧
    ((withLink { live with head := .lost, lostCount := 6 }).link (panelOf 0)).lostCount < 7 ∧
    ((withLink { live with head := .lost, lostCount := 7 }).link (panelOf 0)).lostCount = 7 ∧
    ((withLink { live with head := .lost, lostCount := 7 }).link (panelOf 0)).head = .lost := by decide

theorem witness_withLink_shape (l : LinkContext) : (withLink l).Shape := by
  have h := witness_bench_shape
  exact ⟨h.1, h.2, h.3, h.4, h.5, h.6, h.7, by simp [withLink], h.9, h.10, h.11, h.12, h.13, h.14, h.15, h.16, h.17, h.18, h.19, h.20, h.21⟩

theorem witness_MissesWearTheHeadOut :
    (∀ l, (withLink l).Shape) ∧ (withLink live).Settled ∧ ((withLink live).link (panelOf 0)).window = some .page ∧
    ((5 : Half).toNat < 6 ∧ 15 < (16 : Half).toNat) ∧
    ((withLink { live with head := .seeking }).link (panelOf 0)).head = .seeking ∧
    ((withLink { live with missRun := 1 }).link (panelOf 0)).missRun < 2 ∧
    ((withLink { live with missRun := 2 }).link (panelOf 0)).missRun = 2 ∧
    ((withLink { live with head := .degraded, missRun := 10 }).link (panelOf 0)).missRun < 11 ∧
    ((withLink { live with head := .degraded, missRun := 11 }).link (panelOf 0)).missRun = 11 :=
  ⟨witness_withLink_shape, by decide⟩

theorem witness_MissesWearTheHeadOut_degrades : (withLink { live with missRun := 2 }).PlaysFit := by
  intro p r h
  obtain ⟨rfl, rfl⟩ := test_one_play p r h
  decide

theorem witness_StatusReportAnswersThePage :
    let s := withLink { live with missRun := 1 }
    s.Settled ∧ (s.link (panelOf 0)).window = some .page ∧ (s.link (panelOf 0)).head = .live ∧ (s.link (panelOf 0)).missRun < 2 ∧
      (1 : Byte).toNat ≤ 1 ∧ crc [0, 6, 8, BitVec.ofNat 8 (panelOf 0), 1, 0, 0, 0] ≠ (0 : Byte) ++ (0 : Byte) := by
  decide +kernel

/-- A report with two acknowledgements, the second of another revision, at a DEGRADED head that plays. -/
theorem witness_StatusReportAnswersThePage_acknowledges :
    let s := withLink { live with head := .degraded, missRun := 5 }
    let acks : List (Half × Byte) := [(2, 1), (1, 7)]
    s.Settled ∧ s.Shape ∧ s.PlaysFit ∧ (s.link (panelOf 0)).window = some .page ∧ (s.link (panelOf 0)).head = .degraded ∧
      acks.length ≤ 2 ∧ (s.text 2).present = true ∧ (s.text 2).revision = (1 : Byte).toNat ∧ (s.text 1).revision ≠ (7 : Byte).toNat := by
  refine ⟨by decide, witness_withLink_shape _, ?_, by decide⟩
  intro p r h
  obtain ⟨rfl, rfl⟩ := test_one_play p r h
  decide

theorem witness_ClipReportsMoveTheZone :
    (bench.Settled ∧ (bench.link (panelOf 0)).window = some .page ∧ (bench.link (panelOf 0)).head = .live ∧ (1 : Byte).toNat ≤ 1 ∧
      (bench.panel (panelOf 0)).zone.cue = some cue9 ∧ cue9.token ≠ (8 : Byte).toNat ∧ cue9.token = (9 : Byte).toNat ∧
      (bench.panel (panelOf 0)).zone = .playing cue9 36000 ∧ bench.play? (panelOf 0) = some play1 ∧ play1.roundMark = false ∧
      play1.source = .entry ∧ play1.kind ≠ .fallback ∧ play1.ref = some 0 ∧
      (bench.carousel play1.carousel).ring[0]? = some entry310) ∧
    (let s : State := { bench with panels := { lit with zone := .cued cue9 none } :: List.replicate 11 Panel.atReset }
     (s.panel (panelOf 0)).zone = .cued cue9 none ∧ (s.panel (panelOf 0)).zone.cue = some cue9) := by decide

/-- The bench with panel 1 SEEKING, its zone IDLE. -/
def seeking : State :=
  { withLink { live with head := .seeking } with
    panels := List.replicate 12 Panel.atReset, plays := List.replicate 12 none }

theorem witness_IdentityBringsTheHeadLive :
    seeking.Shape ∧ seeking.ZoneFits (panelOf 0) ∧ seeking.Settled ∧ (seeking.link (panelOf 0)).window = some .page ∧
    (seeking.link (panelOf 0)).head = .seeking ∧ (1 : Byte).toNat ≤ 1 ∧ 1 ≤ (16 : Byte).toNat ∧ (16 : Byte).toNat ≤ 16 := by
  have h := witness_withLink_shape { live with head := .seeking }
  exact ⟨⟨h.1, h.2, h.3, h.4, h.5, by decide, by decide, h.8, h.9, h.10, h.11, h.12, h.13, h.14, h.15, h.16, h.17, h.18, h.19, h.20, h.21⟩,
    ⟨by decide, by decide, by decide, by decide, by decide⟩, by decide⟩

theorem witness_IdentityBringsTheHeadLive_restarts :
    bench.Shape ∧ bench.ZoneFits (panelOf 0) ∧ bench.Settled ∧ (bench.link (panelOf 0)).window = some .page ∧
    (bench.link (panelOf 0)).head = .live ∧ (bench.link (panelOf 0)).generationKnown = true ∧
    (bench.link (panelOf 0)).generation ≠ (3 : Byte).toNat :=
  ⟨witness_bench_shape, witness_bench_zoned _ (by decide), by decide⟩

/-- The bench with panels 1 and 2 in a round of carousel 1, and with panel 1 alone in it. -/
theorem witness_ZoneDeadlineEndsThePlay_of_a_round :
    let round (l : PanelSet) : Round := { ref := some 1, clip := 320, kind := .primary, length := 30, pending := l }
    let play : Play := { play1 with ref := some 1, clip := 320, roundMark := true }
    let s : State := { bench with
      carousels := { ring2 with mode := .lockstep, round := some (round 3) } :: List.replicate 7 Carousel.atReset
      plays := some play :: some play :: List.replicate 10 none }
    s.Settled ∧ s.plays.length = 12 ∧ (s.panel (panelOf 0)).zone = .playing cue9 36000 ∧ s.play? (panelOf 0) = some play ∧
      play.roundMark = true ∧ (round 3).pending &&& ~~~(1#12 <<< 0) ≠ 0 ∧ (round 1).pending &&& ~~~(1#12 <<< 0) = 0 := by decide

theorem witness_ZoneDeadlineEndsThePlay :
    bench.Shape ∧ bench.Settled ∧ (bench.panel (panelOf 0)).zone = .playing cue9 36000 ∧
    bench.play? (panelOf 0) = some play1 ∧ play1.roundMark = false ∧
    (({ bench with panels := { lit with zone := .cued cue9 (some 4000) } :: List.replicate 11 Panel.atReset } : State).panel
      (panelOf 0)).zone = .cued cue9 (some 4000) := ⟨witness_bench_shape, by decide⟩

/-! ### Witnesses: queries, the wire and the invariants -/

theorem witness_CrcClosesEveryFrame :
    let b : List Byte := [8, 1, 0, 0, 0, 0]
    6 ≤ (Wire.half 0 6).toNat ∧ (Wire.half 0 6).toNat ≤ 15 ∧ b.length = (Wire.half 0 6).toNat := by decide

theorem witness_QueriesAnswerTheStateAsItStands :
    Taken svc [.schedule, .sales, .desk, .service] bench ∧ bench.showing? (7 : Half).toNat = some seats7 ∧ (7 : Half).toNat ≠ 0 ∧
    (bench.hold? (5 : Half).toNat).isSome = true ∧ (5 : Half).toNat ≠ 0 ∧ (0 : Byte).toNat = 0 ∧
    bench.notice? (41 : Byte).toNat = some notice41 ∧ (8 : Byte).toNat ≤ 8 ∧ (31 : Byte).toNat ≤ 31 ∧ (12 : Byte).toNat ≤ 12 := by
  decide

theorem witness_MessagesReadBackAsTheirRequests :
    let i := Instr.sell ⟨.b, 2⟩ 310 4
    i.wellFormed = true ∧ Wire.fieldsOf i = some (⟨.b, 2⟩, 48, [0x01, 0x36, 4]) ∧
      Wire.messageBytes i = some (.b, [5, 0x30, 0x01, 0x36, 4]) ∧ 2 = ([0, 0] : List Byte).length := by decide

theorem witness_EveryStepKeepsTheInvariants :
    bench.Shape ∧ bench.Dated ∧ bench.Ranged ∧ bench.Seated ∧ bench.Noticed ∧ bench.Zoned ∧ bench.Profiled ∧ bench.PlaysFit ∧
      ∃ t, step bench = .next t :=
  ⟨witness_bench_shape, witness_bench_dated, witness_bench_ranged, witness_bench_seated, witness_bench_noticed,
    witness_bench_zoned, witness_bench_profiled, witness_bench_playsFit, _, rfl⟩

end Sys2Proof.Tests
end

section
/-! PROOFS of the Showing Table's family (spec/03): the display order and the row list (R36, R141). -/

namespace Sys2Proof.Machine

/-! ### The display order -/

/-- R36's order in plain arithmetic, the form the order facts below are read off from. -/
theorem Showing.before_iff (x y : Showing) :
    x.before y = true ↔
      x.effective < y.effective ∨ x.effective = y.effective ∧
        (x.auditorium < y.auditorium ∨ x.auditorium = y.auditorium ∧ x.id < y.id) := by
  simp [Showing.before]

theorem Showing.before_trans {x y z : Showing} (hxy : x.before y = true) (hyz : y.before z = true) :
    x.before z = true := by
  rw [Showing.before_iff] at *
  omega

/-- The id settles every tie, so one of two showings of different ids stands before the other, and only one (R36). -/
theorem Showing.before_iff_not_before {x y : Showing} (h : x.id ≠ y.id) : x.before y = true ↔ y.before x = false := by
  rw [← Bool.not_eq_true, Showing.before_iff, Showing.before_iff]
  omega

/-! ### A showing put in its place -/

theorem insertRow_perm (x : Showing) (l : List Showing) : (insertRow x l).Perm (x :: l) := by
  induction l with
  | nil => exact .refl _
  | cons y l ih =>
    rw [insertRow]
    split
    · exact (ih.cons y).trans (.swap x y l)
    · exact .refl _

theorem insertRow_pairwise {x : Showing} {l : List Showing} (hl : l.Pairwise (fun a b => a.before b = true))
    (hx : ∀ y ∈ l, x.id ≠ y.id) : (insertRow x l).Pairwise (fun a b => a.before b = true) := by
  induction l with
  | nil => exact List.pairwise_singleton _ x
  | cons y l ih =>
    obtain ⟨hy, hl'⟩ := List.pairwise_cons.1 hl
    obtain ⟨hxy, hxl⟩ := List.forall_mem_cons.1 hx
    rw [insertRow]
    split
    next hyx =>
      refine List.pairwise_cons.2 ⟨fun z hz => ?_, ih hl' hxl⟩
      rcases List.mem_cons.1 ((insertRow_perm x l).mem_iff.1 hz) with rfl | hz
      · exact hyx
      · exact hy z hz
    next hyx =>
      have hbefore : x.before y = true := (Showing.before_iff_not_before hxy).2 (Bool.eq_false_of_not_eq_true hyx)
      exact List.pairwise_cons.2
        ⟨List.forall_mem_cons.2 ⟨hbefore, fun z hz => Showing.before_trans hbefore (hy z hz)⟩, hl⟩

/-! ### The sorted list -/

theorem foldr_insertRow_perm (l : List Showing) : (l.foldr insertRow []).Perm l := by
  induction l with
  | nil => exact .refl _
  | cons x l ih => exact (insertRow_perm x _).trans (ih.cons x)

theorem foldr_insertRow_pairwise {l : List Showing} (h : Rising (l.map Showing.id)) :
    (l.foldr insertRow []).Pairwise (fun a b => a.before b = true) := by
  induction l with
  | nil => exact .nil
  | cons x l ih =>
    obtain ⟨hx, hl⟩ := List.pairwise_cons.1 h
    refine insertRow_pairwise (ih hl) fun y hy => ?_
    have hyl : y ∈ l := (foldr_insertRow_perm l).mem_iff.1 hy
    exact (hx y.id (List.mem_map_of_mem hyl)).ne

theorem rowList_perm (s : State) (p : Nat) :
    (s.rowList p).Perm (s.showings.filter (s.panel p).profile.shows) :=
  foldr_insertRow_perm _

theorem rowList_pairwise {s : State} (p : Nat) (h : Rising (s.showings.map Showing.id)) :
    (s.rowList p).Pairwise (fun x y => x.before y = true) :=
  foldr_insertRow_pairwise (rising_filter Showing.id _ h)

/-- Settles O44: insertion sorts what R141's tests leave, and the id makes R36's order total. -/
theorem rowListStandsInDisplayOrder : Obligations.RowListStandsInDisplayOrder := by
  unfold Obligations.RowListStandsInDisplayOrder
  exact ⟨fun s p h => ⟨rowList_perm s p, rowList_pairwise p h⟩, fun _ _ => Showing.before_iff_not_before⟩

end Sys2Proof.Machine
end

section
/-! PROOFS of the Seat Accounting Unit's family (spec/04): the seat journal's two requests (R82, R83). -/

namespace Sys2Proof.Machine

/-! ### A request whose rule raises nothing -/

theorem Taken.settled {t : Txn} {roles : List Role} {s : State} (h : Taken t roles s) : s.Settled :=
  let ⟨_, _, hsettled⟩ := h
  hsettled

/-- A message heard leaves the seat journal as it stands. -/
theorem heard_journal (t : Txn) (n : Nat) {s : State} (h : s.Settled) : (heard t n s).journal = s.journal := by
  obtain ⟨w, q, c, e⟩ := heard_frame t n h
  rw [e]

/-- Where the rule raises no record and makes no entry, the end of the arrival adds nothing to what the rule did. -/
theorem request_taken_quiet {t : Txn} {roles : List Role} {s : State} (h : Taken t roles s) (n kind : Nat)
    {body : State → Answer × State} (hq : (body (heard t n s)).2.Settled) :
    request t n kind roles body s = replied t kind (body (heard t n s)).1 (body (heard t n s)).2 := by
  obtain ⟨htakes, hrole, hsettled⟩ := h
  rw [request_taken htakes hsettled n kind hrole, settle_settled hq]

/-! ### The journal's rules -/

theorem swapJournal_settled {s : State} (h : s.Settled) : (swapJournal s).2.Settled := h

theorem readJournal_state (start count : Nat) (s : State) : (readJournal start count s).2 = s := by
  unfold readJournal
  split <;> rfl

theorem readJournal_answer {start : Nat} (h : start ≤ 127) (count : Nat) (s : State) :
    (readJournal start count s).1 =
      let entries := (s.journal.closed.drop start).take (min 10 count)
      done (decide (10 < count))
        (u8 s.journal.closed.length ++ u8 start ++ u8 entries.length ++ entries.flatMap JournalEntry.bytes) := by
  rw [readJournal, if_neg h.not_gt]

theorem readJournal_refused {start : Nat} (h : 127 < start) (count : Nat) (s : State) :
    (readJournal start count s).1 = refuse .malformed := by
  rw [readJournal, if_pos h]

/-! ### The requests carried out -/

theorem exec_swapJournal_taken {t : Txn} {s : State} (h : Taken t [.desk, .service] s) :
    exec (.swapJournal t) s = .next (replied t 55 (swapJournal (heard t 2 s)).1 (swapJournal (heard t 2 s)).2) :=
  congrArg Host.Outcome.next (request_taken_quiet h 2 55 (swapJournal_settled (heard_settled t 2 h.settled)))

/-- READ JOURNAL leaves the state as heard, whatever it answers (R82). -/
theorem exec_readJournal_taken {t : Txn} {s : State} (h : Taken t [.desk, .service] s) (start count : Byte) :
    exec (.readJournal t start count) s =
      .next (replied t 54 (readJournal start.toNat count.toNat (heard t 4 s)).1 (heard t 4 s)) := by
  have hstate := readJournal_state start.toNat count.toNat (heard t 4 s)
  have hrequest := request_taken_quiet h 4 54 (body := readJournal start.toNat count.toNat)
    (by rw [hstate]; exact heard_settled t 4 h.settled)
  rw [hstate] at hrequest
  exact congrArg Host.Outcome.next hrequest

/-- Settles O31: neither request raises anything, and the message heard before it leaves the banks alone. -/
theorem journalRequestsSwapAndRead : Obligations.JournalRequestsSwapAndRead := by
  unfold Obligations.JournalRequestsSwapAndRead
  intro t s h
  refine ⟨?swap, fun start count hstart => ?read, fun start count hstart => ?refused⟩
  case swap => rw [exec_swapJournal_taken h, swapJournal, heard_journal t 2 h.settled]
  case read => rw [exec_readJournal_taken h, readJournal_answer hstart, heard_journal t 4 h.settled]
  case refused => rw [exec_readJournal_taken h, readJournal_refused hstart]

end Sys2Proof.Machine
end

section
/-! PROOFS of the availability figure's family (spec/05): the band between its two targets (R87, R88). -/

namespace Sys2Proof.Machine

/-! ### The band targets (R87) -/

@[simp] theorem seatsLeft_eq_zero_iff {c s h : Nat} : seatsLeft c s h = 0 ↔ c ≤ s + h :=
  Nat.sub_eq_zero_iff_le

theorem Band.eq_full_iff {b : Band} : b = .full ↔ Band.full.code ≤ b.code := by
  cases b <;> decide

theorem bandTarget_eq_full_iff (a b k l q : Nat) : bandTarget a b k l q = .full ↔ l = 0 := by
  unfold bandTarget
  split
  next hl => exact iff_of_true rfl hl
  next hl =>
    refine iff_of_false ?_ hl
    split
    · decide
    · split <;> decide

/-- A target is never emptier with lower thresholds: each step of R87 that holds with the higher ones holds with the lower. -/
theorem bandTarget_code_antitone {a a' b b' : Nat} (ha : a' ≤ a) (hb : b' ≤ b) (k l q : Nat) :
    (bandTarget a b k l q).code ≤ (bandTarget a' b' k l q).code := by
  unfold bandTarget
  split
  next => exact le_rfl
  next =>
    by_cases hfew : b ≤ q ∨ l ≤ k
    · rw [if_pos hfew, if_pos (hfew.imp_left hb.trans)]
    · rw [if_neg hfew]
      by_cases hfilling : a ≤ q
      · rw [if_pos hfilling, if_pos (ha.trans hfilling)]
        split <;> decide
      · rw [if_neg hfilling]
        exact Nat.zero_le _

theorem risingTarget_code_le_fallingTarget (f : FigureSettings) (c s h : Nat) :
    (risingTarget f c s h).code ≤ (fallingTarget f c s h).code :=
  bandTarget_code_antitone (Nat.sub_le _ _) (Nat.sub_le _ _) _ _ _

theorem risingTarget_eq_full_iff (f : FigureSettings) (c s h : Nat) : risingTarget f c s h = .full ↔ c ≤ s + h :=
  (bandTarget_eq_full_iff _ _ _ _ _).trans seatsLeft_eq_zero_iff

theorem fallingTarget_eq_full_iff (f : FigureSettings) (c s h : Nat) : fallingTarget f c s h = .full ↔ c ≤ s + h :=
  (bandTarget_eq_full_iff _ _ _ _ _).trans seatsLeft_eq_zero_iff

/-! ### One move of the band (R88) -/

theorem moveBand_rises {up b : Band} (h : b.code < up.code) (down : Band) : moveBand up down b = up :=
  if_pos h

theorem moveBand_falls {up down b : Band} (hup : up.code ≤ b.code) (hdown : down.code < b.code) :
    moveBand up down b = down :=
  (if_neg hup.not_gt).trans (if_pos hdown)

theorem moveBand_stays {up down b : Band} (hup : up.code ≤ b.code) (hdown : b.code ≤ down.code) :
    moveBand up down b = b :=
  (if_neg hup.not_gt).trans (if_neg hdown.not_gt)

theorem moveBand_between {up down : Band} (h : up.code ≤ down.code) (b : Band) :
    up.code ≤ (moveBand up down b).code ∧ (moveBand up down b).code ≤ down.code := by
  rcases lt_or_ge b.code up.code with hrise | hup
  · rw [moveBand_rises hrise]
    exact ⟨le_rfl, h⟩
  · rcases lt_or_ge down.code b.code with hfall | hdown
    · rw [moveBand_falls hup hfall]
      exact ⟨h, le_rfl⟩
    · rw [moveBand_stays hup hdown]
      exact ⟨hup, hdown⟩

/-! ### The band recomputed -/

theorem Showing.nextBand_between (f : FigureSettings) (x : Showing) :
    (risingTarget f x.cap x.sold x.held).code ≤ (x.nextBand f).code ∧
      (x.nextBand f).code ≤ (fallingTarget f x.cap x.sold x.held).code :=
  moveBand_between (risingTarget_code_le_fallingTarget f _ _ _) x.band

/-- Both targets are FULL exactly where no seat is left, and the band lies between them. -/
theorem Showing.nextBand_eq_full_iff (f : FigureSettings) (x : Showing) :
    x.nextBand f = .full ↔ x.cap ≤ x.sold + x.held := by
  obtain ⟨hup, hdown⟩ := x.nextBand_between f
  constructor
  · intro hfull
    rw [hfull] at hdown
    exact (fallingTarget_eq_full_iff f _ _ _).1 (Band.eq_full_iff.2 hdown)
  · intro hnone
    rw [(risingTarget_eq_full_iff f _ _ _).2 hnone] at hup
    exact Band.eq_full_iff.2 hup

/-- Settles O33: the three moves are R88's cases, and t_up is never above t_down. -/
theorem bandMovesBetweenItsTargets : Obligations.BandMovesBetweenItsTargets := by
  unfold Obligations.BandMovesBetweenItsTargets
  intro f x
  exact ⟨fun hrise => moveBand_rises hrise _, moveBand_falls, moveBand_stays, x.nextBand_eq_full_iff f,
    x.nextBand_between f⟩

end Sys2Proof.Machine
end

section
/-! PROOFS of the trailer carousels' family (spec/07): an entry dropped from its ring (R120, R122). -/

namespace Sys2Proof.Machine

/-! ### The carousels and the plays, read back -/

/-- A message heard leaves the carousels as they stand. -/
theorem heard_carousels (t : Txn) (n : Nat) {s : State} (h : s.Settled) : (heard t n s).carousels = s.carousels := by
  obtain ⟨w, q, c, e⟩ := heard_frame t n h
  rw [e]

/-- A message heard leaves the play records as they stand. -/
theorem heard_plays (t : Txn) (n : Nat) {s : State} (h : s.Settled) : (heard t n s).plays = s.plays := by
  obtain ⟨w, q, c, e⟩ := heard_frame t n h
  rw [e]

theorem heard_read_carousel (t : Txn) (n : Nat) {s : State} (h : s.Settled) (i : Nat) :
    (heard t n s).carousel i = s.carousel i :=
  congrArg (slot Carousel.atReset · i) (heard_carousels t n h)

theorem heard_read_play? (t : Txn) (n : Nat) {s : State} (h : s.Settled) (i : Nat) :
    (heard t n s).play? i = s.play? i :=
  congrArg (slot none · i) (heard_plays t n h)

theorem State.carousel_modCarousel_same {k : Nat} {s : State} (hk : 1 ≤ k) (hs : k ≤ s.carousels.length)
    (f : Carousel → Carousel) : (s.modCarousel k f).carousel k = f (s.carousel k) :=
  slot_modSlot_same _ f s.carousels k hk hs

theorem State.carousel_modCarousel_other {k i : Nat} (h : i ≠ k) (f : Carousel → Carousel) (s : State) :
    (s.modCarousel k f).carousel i = s.carousel i :=
  slot_modSlot_other _ f s.carousels k i h

/-- A table of records that may be absent, each record changed. -/
theorem slot_map_map {α : Type} (g : α → α) (l : List (Option α)) (n : Nat) :
    slot none (l.map (Option.map g)) n = (slot none l n).map g := by
  cases n with
  | zero => rfl
  | succ n => exact List.getD_map l none (Option.map g)

theorem slot_mem {α : Type} (d : α) {l : List α} {n : Nat} (h1 : 1 ≤ n) (h2 : n ≤ l.length) : slot d l n ∈ l := by
  obtain ⟨k, rfl⟩ : ∃ k, n = k + 1 := ⟨n - 1, by omega⟩
  rw [slot, List.getD_eq_getElem l d h2]
  exact List.getElem_mem h2

/-- A ring has at most 32 places, so no entry lies above position 31 (R118). -/
theorem State.Shape.ring_length {s : State} (h : s.Shape) {k : Nat} (h1 : 1 ≤ k) (h8 : k ≤ 8) :
    (s.carousel k).ring.length ≤ 32 :=
  h.rings _ (slot_mem _ h1 (h.carousels ▸ h8))

/-! ### References changed (R120) -/

/-- The reference of a carousel's round changed. -/
def Carousel.mapRef (f : Nat → Option Nat) (c : Carousel) : Carousel :=
  { c with round := c.round.map fun r => { r with ref := r.ref.bind f } }

/-- The reference of a play record changed, where the record names the carousel. -/
def Play.mapRef (k : Nat) (f : Nat → Option Nat) (r : Play) : Play :=
  if r.carousel = k then { r with ref := r.ref.bind f } else r

theorem modRefs_carousel_same {k : Nat} {s : State} (hk : 1 ≤ k) (hs : k ≤ s.carousels.length) (f : Nat → Option Nat) :
    (modRefs k f s).carousel k = (s.carousel k).mapRef f :=
  State.carousel_modCarousel_same hk hs (Carousel.mapRef f)

theorem modRefs_carousel_other {k i : Nat} (h : i ≠ k) (f : Nat → Option Nat) (s : State) :
    (modRefs k f s).carousel i = s.carousel i :=
  State.carousel_modCarousel_other h (Carousel.mapRef f) s

theorem modRefs_play? (k : Nat) (f : Nat → Option Nat) (s : State) (i : Nat) :
    (modRefs k f s).play? i = (s.play? i).map (Play.mapRef k f) :=
  slot_map_map (Play.mapRef k f) s.plays i

/-! ### An entry taken out of its ring (R122) -/

/-- A carousel without the entry at a position: the entries after it shift down, and the cursor follows. -/
def Carousel.dropped (p : Nat) (c : Carousel) : Carousel :=
  { c with ring := c.ring.eraseIdx p, cursor := cursorDropped p c.cursor (c.ring.length - 1) }

/-- The state once DROP ENTRY has taken the entry out and the references have followed. -/
def State.entryDropped (k p : Nat) (s : State) : State :=
  modRefs k (refDropped p) (s.modCarousel k (Carousel.dropped p))

theorem entryDropped_carousel_same {k : Nat} {s : State} (hk : 1 ≤ k) (hs : k ≤ s.carousels.length) (p : Nat) :
    (s.entryDropped k p).carousel k = ((s.carousel k).dropped p).mapRef (refDropped p) := by
  have hs' : k ≤ (s.modCarousel k (Carousel.dropped p)).carousels.length := by simpa using hs
  rw [State.entryDropped, modRefs_carousel_same hk hs', State.carousel_modCarousel_same hk hs]

theorem entryDropped_carousel_other {k i : Nat} (h : i ≠ k) (p : Nat) (s : State) :
    (s.entryDropped k p).carousel i = s.carousel i :=
  (modRefs_carousel_other h _ _).trans (State.carousel_modCarousel_other h _ s)

theorem entryDropped_play? (k p : Nat) (s : State) (i : Nat) :
    (s.entryDropped k p).play? i = (s.play? i).map (Play.mapRef k (refDropped p)) :=
  modRefs_play? k (refDropped p) _ i

theorem entryDropped_frame (k p : Nat) (s : State) :
    s.entryDropped k p = { s with
      carousels := (s.entryDropped k p).carousels, plays := (s.entryDropped k p).plays } := rfl

/-! ### DROP ENTRY, answer by answer -/

theorem carouselBad_iff (k : Nat) : carouselBad k = true ↔ k = 0 ∨ 8 < k := by
  simp [carouselBad]

theorem dropEntry_malformed {k p : Nat} (h : k = 0 ∨ 8 < k ∨ 31 < p) (s : State) :
    dropEntry k p s = (refuse .malformed, s) := by
  have hbad : (carouselBad k || decide (31 < p)) = true := by
    rw [Bool.or_eq_true, carouselBad_iff, decide_eq_true_iff]
    exact or_assoc.2 h
  rw [dropEntry, if_pos hbad]

/-- A request that passes the form checks is judged by the ring alone. -/
theorem dropEntry_wellFormed {k p : Nat} (h1 : 1 ≤ k) (h8 : k ≤ 8) (hp : p ≤ 31) (s : State) :
    dropEntry k p s =
      if (s.carousel k).ring.length ≤ p then (refuse .unknown, s)
      else (done false (u8 ((s.entryDropped k p).carousel k).ring.length), s.entryDropped k p) := by
  have hgood : ¬ (carouselBad k || decide (31 < p)) = true := by
    rw [Bool.or_eq_true, carouselBad_iff, decide_eq_true_iff]
    omega
  rw [dropEntry, if_neg hgood]
  rfl

theorem dropEntry_unknown {k p : Nat} (h1 : 1 ≤ k) (h8 : k ≤ 8) (hp : p ≤ 31) {s : State}
    (h : (s.carousel k).ring.length ≤ p) : dropEntry k p s = (refuse .unknown, s) := by
  rw [dropEntry_wellFormed h1 h8 hp, if_pos h]

theorem dropEntry_done {k p : Nat} (h1 : 1 ≤ k) (h8 : k ≤ 8) (hp : p ≤ 31) {s : State} (hs : k ≤ s.carousels.length)
    (h : p < (s.carousel k).ring.length) :
    dropEntry k p s = (done false (u8 ((s.carousel k).ring.length - 1)), s.entryDropped k p) := by
  have hcount : ((s.entryDropped k p).carousel k).ring.length = (s.carousel k).ring.length - 1 := by
    rw [entryDropped_carousel_same h1 hs]
    exact List.length_eraseIdx_of_lt h
  rw [dropEntry_wellFormed h1 h8 hp, if_neg h.not_ge, hcount]

/-- Whatever DROP ENTRY answers, it raises no record and makes no journal entry. -/
theorem dropEntry_settled (k p : Nat) {s : State} (h : s.Settled) : (dropEntry k p s).2.Settled := by
  unfold dropEntry
  split
  · exact h
  · split <;> exact h

theorem exec_dropEntry_taken {t : Txn} {s : State} (h : Taken t [.schedule, .service] s) (carousel position : Byte) :
    exec (.dropEntry t carousel position) s =
      .next (replied t 81 (dropEntry carousel.toNat position.toNat (heard t 4 s)).1
        (dropEntry carousel.toNat position.toNat (heard t 4 s)).2) :=
  congrArg Host.Outcome.next (request_taken_quiet h 4 81 (dropEntry_settled _ _ (heard_settled t 4 h.settled)))

/-- Settles O40: the ring, the cursor and the references move as `State.entryDropped` says, and the message heard before it leaves
carousels and plays alone. -/
theorem dropEntryRemovesTheEntry : Obligations.DropEntryRemovesTheEntry := by
  unfold Obligations.DropEntryRemovesTheEntry
  refine ⟨fun t carousel position s h hshape h1 h8 hp => ?done, fun t carousel position s h hbad => ?malformed,
    fun t carousel position s h h1 h8 hp hnone => ?unknown⟩
  case done =>
    have hc := heard_read_carousel t 4 h.settled
    have hlength : carousel.toNat ≤ (heard t 4 s).carousels.length := by
      rw [heard_carousels t 4 h.settled, hshape.carousels]
      exact h8
    have hp31 : position.toNat ≤ 31 := by
      have := hshape.ring_length h1 h8
      omega
    have hdone := dropEntry_done h1 h8 hp31 hlength (by rwa [hc])
    refine ⟨(heard t 4 s).entryDropped carousel.toNat position.toNat, ?answer, ?dropped, fun i hi => ?others, fun i => ?plays,
      entryDropped_frame _ _ _⟩
    case answer => rw [exec_dropEntry_taken h, hdone, hc]
    case dropped =>
      rw [entryDropped_carousel_same h1 hlength, hc]
      rfl
    case others => rw [entryDropped_carousel_other hi, hc]
    case plays =>
      rw [entryDropped_play?, heard_read_play? t 4 h.settled]
      rfl
  case malformed => rw [exec_dropEntry_taken h, dropEntry_malformed hbad]
  case unknown =>
    have hring : ((heard t 4 s).carousel carousel.toNat).ring.length ≤ position.toNat := by
      rwa [heard_read_carousel t 4 h.settled]
    rw [exec_dropEntry_taken h, dropEntry_unknown h1 h8 hp hring]

end Sys2Proof.Machine
end

section
/-! PROOFS of the panel links' family (spec/09): the CRC, and where frames and reports carry it (R161, R194). -/

namespace Sys2Proof.Machine

/-! ### The two bytes of a half -/

theorem hiByte_getLsbD (x : Half) {i : Nat} (h : i < 8) : (Wire.hiByte x).getLsbD i = x.getLsbD (8 + i) := by
  simp [Wire.hiByte, h]

theorem loByte_getLsbD (x : Half) {i : Nat} (h : i < 8) : (Wire.loByte x).getLsbD i = x.getLsbD i := by
  simp [Wire.loByte, h]

@[simp] theorem hiByte_half (hi lo : Byte) : Wire.hiByte (Wire.half hi lo) = hi :=
  BitVec.extractLsb'_append_eq_left

@[simp] theorem loByte_half (hi lo : Byte) : Wire.loByte (Wire.half hi lo) = lo :=
  BitVec.extractLsb'_append_eq_right

@[simp] theorem half_hiByte_loByte (x : Half) : Wire.half (Wire.hiByte x) (Wire.loByte x) = x :=
  BitVec.extractLsb'_append_extractLsb'_eq_extractLsb' (by rfl) |>.trans BitVec.extractLsb'_eq_self

theorem halfBytes_eq_iff (x : Half) (hi lo : Byte) : Wire.halfBytes x = [hi, lo] ↔ x = Wire.half hi lo := by
  constructor
  · intro h
    obtain ⟨rfl, rfl⟩ : Wire.hiByte x = hi ∧ Wire.loByte x = lo := by simpa [Wire.halfBytes] using h
    exact (half_hiByte_loByte x).symm
  · rintro rfl
    simp [Wire.halfBytes]

/-! ### Bits and bytes entered into the CRC -/

/-- A bit equal to the top bit of the computation only shifts it. -/
theorem crcBit_of_eq {c : BitVec 16} {b : Bool} (h : c.getLsbD 15 = b) : crcBit c b = c <<< 1 :=
  if_neg (by simpa only [bne_iff_ne, ne_eq, not_not] using h)

/-- A bit unlike the top bit of the computation also brings the polynomial in (R161). -/
theorem crcBit_of_ne {c : BitVec 16} {b : Bool} (h : c.getLsbD 15 ≠ b) : crcBit c b = (c <<< 1) ^^^ 0x1021#16 :=
  if_pos (bne_iff_ne.mpr h)

theorem crcBit_eq_polynomial (c : BitVec 16) (b : Bool) :
    crcBit c b = (c <<< 1) ^^^ (if c.getLsbD 15 = b then 0#16 else (1#16 <<< 12) ^^^ (1#16 <<< 5) ^^^ 1#16) := by
  by_cases h : c.getLsbD 15 = b
  · rw [crcBit_of_eq h, if_pos h, BitVec.xor_zero]
  · rw [crcBit_of_ne h, if_neg h]
    rfl

/-- The first n bits of a byte entered into the CRC, most significant bit first. -/
def crcBits (c : BitVec 16) (x : Byte) (n : Nat) : BitVec 16 :=
  (List.range n).foldl (fun c i => crcBit c (x.getLsbD (7 - i))) c

theorem crcBits_succ (c : BitVec 16) (x : Byte) (n : Nat) :
    crcBits c x (n + 1) = crcBit (crcBits c x n) (x.getLsbD (7 - n)) := by
  simp [crcBits, List.range_succ]

theorem crcByte_eq_crcBits (c : BitVec 16) (x : Byte) : crcByte c x = crcBits c x 8 := rfl

theorem crc_append (a b : List Byte) : crc (a ++ b) = b.foldl crcByte (crc a) := List.foldl_append

/-! ### The residue -/

/-- A computation that has shifted out k of its bits and meets the next eight as the byte that enters is shifted by each bit, for
every bit entered equals its top bit. -/
theorem crcBits_shiftLeft {c : BitVec 16} {x : Byte} {k : Nat} (hk : k ≤ 8)
    (hx : ∀ i < 8, x.getLsbD i = c.getLsbD (8 - k + i)) {n : Nat} (hn : n ≤ 8) :
    crcBits (c <<< k) x n = c <<< (k + n) := by
  induction n with
  | zero => rfl
  | succ n ih =>
    have htop : (c <<< (k + n)).getLsbD 15 = x.getLsbD (7 - n) := by
      have hbit : 15 - (k + n) = 8 - k + (7 - n) := by omega
      have hin : ¬ 15 < k + n := by omega
      rw [hx _ (by omega), ← hbit]
      simp only [BitVec.getLsbD_shiftLeft, hin, decide_false, decide_true, Nat.reduceLT, Bool.not_false, Bool.true_and]
    rw [crcBits_succ, ih (by omega), crcBit_of_eq htop, ← BitVec.shiftLeft_add, Nat.add_assoc]

theorem crcByte_hiByte_self (c : BitVec 16) : crcByte c (Wire.hiByte c) = c <<< 8 := by
  have h := crcBits_shiftLeft (c := c) (k := 0) (by omega) (fun i hi => hiByte_getLsbD c hi) le_rfl
  rwa [BitVec.shiftLeft_zero, Nat.zero_add, ← crcByte_eq_crcBits] at h

theorem crcByte_shiftLeft_loByte (c : BitVec 16) : crcByte (c <<< 8) (Wire.loByte c) = 0 := by
  have hx : ∀ i < 8, (Wire.loByte c).getLsbD i = c.getLsbD (8 - 8 + i) := fun i hi => by
    rw [loByte_getLsbD c hi, Nat.sub_self, Nat.zero_add]
  calc crcByte (c <<< 8) (Wire.loByte c)
      _ = c <<< (8 + 8) := crcBits_shiftLeft le_rfl hx le_rfl
      _ = 0 := BitVec.shiftLeft_eq_zero le_rfl

/-- R161's check: the two CRC bytes shift the computation out. -/
theorem crc_withCrc (b : List Byte) : crc (withCrc b) = 0 :=
  calc crc (withCrc b)
      _ = crcByte (crcByte (crc b) (Wire.hiByte (crc b))) (Wire.loByte (crc b)) := crc_append b _
      _ = 0 := by rw [crcByte_hiByte_self, crcByte_shiftLeft_loByte]

/-! ### The CRC of a report -/

/-- A report whose length field counts its bytes is complete, and read where it carries its CRC (R161, R194). -/
theorem arrived_report {h l hi lo : Byte} {b : List Byte} (h6 : 6 ≤ (Wire.half h l).toNat) (h15 : (Wire.half h l).toNat ≤ 15)
    (hb : b.length = (Wire.half h l).toNat) :
    arrived (0xA5#8 :: h :: l :: (b ++ [hi, lo])) =
      .complete (if crc (h :: l :: b) = Wire.half hi lo then readReport b else none) := by
  rw [← hb] at h6 h15
  simp [arrived, afterStart, ← hb, h6, h15, halfBytes_eq_iff]

/-! ### The obligation -/

/-- Settles O52: the CRC's bits come from `crcBit_eq_polynomial`, a report's check from `arrived_report`, the residue from
`crc_withCrc`; a frame is closed by its definition. -/
theorem crcClosesEveryFrame : Obligations.CrcClosesEveryFrame := by
  unfold Obligations.CrcClosesEveryFrame
  refine ⟨?vector, crcBit_eq_polynomial, rfl, fun b x => ?byte, fun h l hi lo b h6 h15 hb => ?report, crc_withCrc,
    fun f => ?frame⟩
  case vector => decide +kernel
  case byte => exact crc_append b [x]
  case report => exact arrived_report h6 h15 hb
  case frame => exact ⟨u16 f.content.length ++ f.content, rfl⟩

end Sys2Proof.Machine
end

section
/-! PROOFS, the layer the invariants of every step rest on: what the work of an arrival at the showings, holds, notices and zones
leaves alone, and what it keeps of the sizes and the profiles. -/

namespace Sys2Proof.Machine

/-! ### Relations carried through a fold -/

/-- A relation that holds along every step of a fold holds along the fold. -/
theorem foldl_rel {α β : Type} (R : β → β → Prop) (refl : ∀ s, R s s) (trans : ∀ {s t u}, R s t → R t u → R s u)
    (f : β → α → β) (h : ∀ s x, R s (f s x)) (l : List α) (s : β) : R s (l.foldl f s) := by
  induction l generalizing s with
  | nil => exact refl s
  | cons x l ih => exact trans (h s x) (ih _)

/-! ### The frame of a day's work -/

/-- The new state is the old one, but for the showings, the holds, the notices, the carousels, the plays, the panels, and what the
arrival has raised and chosen. -/
def DayFrame (s t : State) : Prop :=
  t = { s with
    showings := t.showings, holds := t.holds, notices := t.notices, carousels := t.carousels, plays := t.plays,
    panels := t.panels, outbox := t.outbox, journalBox := t.journalBox, choice := t.choice }

theorem DayFrame.refl (s : State) : DayFrame s s := rfl

theorem DayFrame.trans {s t u : State} (h : DayFrame s t) (k : DayFrame t u) : DayFrame s u :=
  Eq.trans k (by rw [h])

theorem DayFrame.cal {s t : State} (h : DayFrame s t) : t.cal = s.cal := by rw [h]
theorem DayFrame.rstn {s t : State} (h : DayFrame s t) : t.rstn = s.rstn := by rw [h]
theorem DayFrame.core {s t : State} (h : DayFrame s t) : t.core = s.core := by rw [h]
theorem DayFrame.catalogue {s t : State} (h : DayFrame s t) : t.catalogue = s.catalogue := by rw [h]
theorem DayFrame.life {s t : State} (h : DayFrame s t) : t.life = s.life := by rw [h]
theorem DayFrame.watch {s t : State} (h : DayFrame s t) : t.watch = s.watch := by rw [h]
theorem DayFrame.journal {s t : State} (h : DayFrame s t) : t.journal = s.journal := by rw [h]
theorem DayFrame.figure {s t : State} (h : DayFrame s t) : t.figure = s.figure := by rw [h]
theorem DayFrame.links {s t : State} (h : DayFrame s t) : t.links = s.links := by rw [h]
theorem DayFrame.framePeriod {s t : State} (h : DayFrame s t) : t.framePeriod = s.framePeriod := by rw [h]
theorem DayFrame.ports {s t : State} (h : DayFrame s t) : t.ports = s.ports := by rw [h]
theorem DayFrame.queues {s t : State} (h : DayFrame s t) : t.queues = s.queues := by rw [h]
theorem DayFrame.pending {s t : State} (h : DayFrame s t) : t.pending = s.pending := by rw [h]

/-! ### What a day's work keeps -/

/-- A day's work: its frame, the bounds of the tables it touches, and the profiles. -/
structure DayWork (s t : State) : Prop where
  frame : DayFrame s t
  showings : s.showings.length ≤ 192 → t.showings.length ≤ 192
  holds : s.holds.length ≤ 96 → t.holds.length ≤ 96
  notices : s.notices.table.length ≤ 32 → t.notices.table.length ≤ 32
  takeover : s.notices.takeover.length = 12 → t.notices.takeover.length = 12
  carousels : t.carousels.length = s.carousels.length
  rings : (∀ c ∈ s.carousels, c.ring.length ≤ 32) → ∀ c ∈ t.carousels, c.ring.length ≤ 32
  plays : t.plays.length = s.plays.length
  profiles : t.panels.map Panel.profile = s.panels.map Panel.profile

theorem DayWork.refl (s : State) : DayWork s s := ⟨rfl, id, id, id, id, rfl, id, rfl, rfl⟩

theorem DayWork.trans {s t u : State} (h : DayWork s t) (k : DayWork t u) : DayWork s u where
  frame := h.frame.trans k.frame
  showings := k.showings ∘ h.showings
  holds := k.holds ∘ h.holds
  notices := k.notices ∘ h.notices
  takeover := k.takeover ∘ h.takeover
  carousels := k.carousels.trans h.carousels
  rings := k.rings ∘ h.rings
  plays := k.plays.trans h.plays
  profiles := k.profiles.trans h.profiles

theorem DayWork.foldl {α : Type} (f : State → α → State) (h : ∀ s x, DayWork s (f s x)) (l : List α) (s : State) :
    DayWork s (l.foldl f s) :=
  foldl_rel DayWork .refl .trans f h l s

/-- One of two works, whichever a test picks. -/
theorem DayWork.ite {s t u : State} (c : Prop) [Decidable c] (h : DayWork s t) (k : DayWork s u) :
    DayWork s (if c then t else u) := by
  split
  · exact h
  · exact k

theorem DayWork.raise (g : Source) (k : EventKind) (n d : Nat) (s : State) : DayWork s (raise g k n d s) :=
  ⟨rfl, id, id, id, id, rfl, id, rfl, rfl⟩

theorem DayWork.journalize (g : Source) (e : JournalEntry) (s : State) : DayWork s (journalize g e s) :=
  ⟨rfl, id, id, id, id, rfl, id, rfl, rfl⟩

theorem DayWork.chosen (c : Nat) (s : State) : DayWork s { s with choice := c } :=
  ⟨rfl, id, id, id, id, rfl, id, rfl, rfl⟩

/-- What is raised and what is chosen are no matter of size. -/
theorem DayWork.boxes {s t : State} (h : DayWork s t) (o : List (Source × EventRecord)) (j : List (Source × JournalEntry))
    (c : Nat) : DayWork s { t with outbox := o, journalBox := j, choice := c } :=
  h.trans ⟨rfl, id, id, id, id, rfl, id, rfl, rfl⟩

theorem DayWork.modShowing (id' : Nat) (f : Showing → Showing) (s : State) : DayWork s (s.modShowing id' f) :=
  ⟨rfl, by simp, id, id, id, rfl, id, rfl, rfl⟩

/-- A table of showings that is no longer than the old one. -/
theorem DayWork.setShowings {s : State} {l : List Showing} (h : l.length ≤ s.showings.length) :
    DayWork s { s with showings := l } :=
  ⟨rfl, h.trans, id, id, id, rfl, id, rfl, rfl⟩

theorem DayWork.setHolds {s : State} {l : List Hold} (h : l.length ≤ s.holds.length) : DayWork s { s with holds := l } :=
  ⟨rfl, id, h.trans, id, id, rfl, id, rfl, rfl⟩

theorem DayWork.setNotices {s : State} {u : NoticeUnit} (h : s.notices.table.length ≤ 32 → u.table.length ≤ 32)
    (k : s.notices.takeover.length = 12 → u.takeover.length = 12) : DayWork s { s with notices := u } :=
  ⟨rfl, id, id, h, k, rfl, id, rfl, rfl⟩

/-- An entry of a table changed by something that keeps what a projection reads. -/
theorem map_modSlot {α β : Type} (g : α → β) (f : α → α) (hf : ∀ x, g (f x) = g x) (l : List α) (n : Nat) :
    (modSlot f l n).map g = l.map g := by
  cases n with
  | zero => rfl
  | succ n =>
    simp only [modSlot]
    apply List.ext_getElem?
    intro i
    simp only [List.getElem?_map, List.getElem?_modify]
    cases l[i]? with
    | none => rfl
    | some x => by_cases h : n = i <;> simp [h, hf]

theorem mem_modSlot {α : Type} {f : α → α} {l : List α} {n : Nat} {x : α} (h : x ∈ modSlot f l n) :
    x ∈ l ∨ ∃ y ∈ l, x = f y := by
  cases n with
  | zero => exact .inl h
  | succ n =>
    obtain ⟨i, hi, rfl⟩ := List.getElem_of_mem h
    simp only [modSlot, List.length_modify] at hi
    simp only [modSlot, List.getElem_modify]
    split
    · exact .inr ⟨_, List.getElem_mem hi, rfl⟩
    · exact .inl (List.getElem_mem hi)

/-- A change of a carousel that does not lengthen its ring beyond the places. -/
theorem DayWork.modCarousel {f : Carousel → Carousel} {k : Nat} {s : State}
    (hf : ∀ c, c.ring.length ≤ 32 → (f c).ring.length ≤ 32) : DayWork s (s.modCarousel k f) where
  frame := rfl
  showings := id
  holds := id
  notices := id
  takeover := id
  carousels := by simp
  rings h c hc := by
    rcases mem_modSlot hc with hc | ⟨d, hd, rfl⟩
    · exact h c hc
    · exact hf d (h d hd)
  plays := rfl
  profiles := rfl

theorem DayWork.setPlay (p : Nat) (r : Option Play) (s : State) : DayWork s (s.setPlay p r) :=
  ⟨rfl, id, id, id, id, rfl, id, by simp, rfl⟩

theorem DayWork.modPanel {p : Nat} {f : Panel → Panel} {s : State} (hf : ∀ c, (f c).profile = c.profile) :
    DayWork s (s.modPanel p f) :=
  ⟨rfl, id, id, id, id, rfl, id, rfl, map_modSlot _ f hf _ p⟩

/-! ### Zones -/

theorem Carousel.leaveRound_ring (p : Nat) (c : Carousel) : (c.leaveRound p).ring = c.ring := by
  unfold Carousel.leaveRound
  split
  · rfl
  · dsimp only
    split <;> rfl

theorem Carousel.afterFault_ring_length (r : Play) (c : Carousel) : (c.afterFault r).1.ring.length = c.ring.length := by
  unfold Carousel.afterFault
  split
  · split <;> rfl
  · split
    · rfl
    · split
      · rfl
      · exact List.length_set

theorem clearZone_work (p : Nat) (s : State) : DayWork s (clearZone p s) := .modPanel fun _ => rfl

/-- What an outcome changes in the play's carousel, with the record it raises (R133). -/
theorem faultTaken_work (r : Play) (p : Nat) (s : State) :
    DayWork s (raise (.play p) .clipFault r.carousel (r.clip + 4096 * ((s.carousel r.carousel).afterFault r).2)
      (s.modCarousel r.carousel fun _ => ((s.carousel r.carousel).afterFault r).1)) := by
  refine DayWork.trans ?_ (.raise _ _ _ _ _)
  refine ⟨rfl, id, id, id, id, by simp, fun h c hc => ?_, rfl, rfl⟩
  rcases mem_modSlot hc with hc | ⟨d, hd, rfl⟩
  · exact h c hc
  · rw [Carousel.afterFault_ring_length]
    have hlen := List.length_pos_of_mem hd
    by_cases hk : 1 ≤ r.carousel ∧ r.carousel ≤ s.carousels.length
    · obtain ⟨h1, h2⟩ := hk
      exact h _ (slot_mem _ h1 h2)
    · have : s.carousel r.carousel = Carousel.atReset := by
        unfold State.carousel slot
        split
        · rfl
        · exact List.getD_eq_default _ _ (by omega)
      simp [this, Carousel.atReset]

theorem leaveRound_work (k p : Nat) (s : State) : DayWork s (s.modCarousel k (Carousel.leaveRound p)) :=
  .modCarousel fun c h => by rwa [Carousel.leaveRound_ring]

theorem handOutcome_work (p : Nat) (o : PlayOutcome) (s : State) : DayWork s (handOutcome p o s) := by
  unfold handOutcome
  split
  · exact .refl s
  next r _ =>
    refine DayWork.trans (.setPlay p none s) ?_
    dsimp only
    refine DayWork.trans ?_ (DayWork.ite _ (leaveRound_work _ p _) (.refl _))
    cases o with
    | completed => exact .refl _
    | stop => exact .refl _
    | fault => exact faultTaken_work r p _
    | cueTimeout => exact .raise _ _ _ _ _
    | playTimeout => exact .raise _ _ _ _ _

theorem endPlay_work (p : Nat) (o : PlayOutcome) (s : State) : DayWork s (endPlay p o s) := by
  unfold endPlay
  split
  · exact .refl s
  · exact (clearZone_work p s).trans (handOutcome_work p o _)
  · exact (clearZone_work p s).trans (handOutcome_work p o _)

theorem stopZone_work (p : Nat) (s : State) : DayWork s (stopZone p s) := endPlay_work p .stop s

theorem judgeMember_work (p : Nat) (s : State) : DayWork s (judgeMember p s) := by
  unfold judgeMember
  split
  · exact .refl s
  · exact .ite _ (.refl s) (stopZone_work p s)

theorem judgeHush_work (p : Nat) (s : State) : DayWork s (judgeHush p s) := by
  unfold judgeHush
  refine DayWork.trans ?_ (judgeMember_work p _)
  have marked : DayWork s (s.modPanel p fun c => { c with hushed := s.hushDue p }) := .modPanel fun _ => rfl
  exact marked.trans (.ite _ (stopZone_work p _) (.refl _))

theorem judgeHushAll_work (s : State) : DayWork s (judgeHushAll s) :=
  DayWork.foldl (fun t p => judgeHush p t) (fun t p => judgeHush_work p t) panelNumbers s

theorem takeoverChange_work (before : Option Nat) (p : Nat) (s : State) : DayWork s (takeoverChange before p s) := by
  unfold takeoverChange
  split
  · exact (stopZone_work p s).trans (judgeHush_work p _)
  · exact judgeHush_work p s
  · exact .refl s
  · exact .refl s

theorem judgeTakeover_work (s : State) : DayWork s (judgeTakeover s) := by
  refine DayWork.trans (.setNotices (u := { s.notices with takeover := panelNumbers.map s.takeoverDue }) id fun _ => rfl) ?_
  exact DayWork.foldl (fun t p => takeoverChange (s.takeover p) p t) (fun t p => takeoverChange_work _ p t) panelNumbers _

theorem cuePanel_work (r : Play) (p : Nat) (s : State) : DayWork s (cuePanel r p s) := by
  refine DayWork.trans (.modPanel ?_) (.setPlay p (some r) _)
  exact fun _ => rfl

/-! ### Notices -/

theorem freeNotices_work (ids : List Nat) (s : State) : DayWork s (freeNotices ids s) :=
  .setNotices (fun h => (List.length_filter_le _ _).trans h) id

theorem raiseNotices_work (g : Source) (detail : Nat) (ids : List Nat) (s : State) :
    DayWork s (raiseNotices g detail ids s) :=
  DayWork.foldl (fun t i => raise g .noticeState i detail t) (fun t _ => .raise _ _ _ _ t) ids s

theorem retireNotices_work (g : Source) (ids : List Nat) (s : State) : DayWork s (retireNotices g ids s) := by
  refine DayWork.ite _ (.refl s) ?_
  exact (DayWork.chosen _ s).trans ((raiseNotices_work g _ _ _).trans ((freeNotices_work ids _).trans (judgeTakeover_work _)))

theorem retireDelayed_work (g : Source) (id : Nat) (s : State) : DayWork s (retireDelayed g id s) := by
  unfold retireDelayed
  split
  · exact retireNotices_work g _ s
  · exact .refl s

theorem retireLinked_work (id : Nat) (s : State) : DayWork s (retireLinked id s) := retireNotices_work _ _ s

theorem addNotice_work {s : State} (n : Notice) (h : s.notices.table.length < 32) : DayWork s (addNotice n s) :=
  .setNotices (fun _ => by rw [insertKey_length]; omega) id

theorem createDelayed_work (id delay : Nat) (s : State) : DayWork s (createDelayed id delay s).1 := by
  unfold createDelayed
  split
  · split
    next hroom => exact (addNotice_work _ hroom).trans (.raise _ _ _ _ _)
    · exact .refl s
  · exact .refl s

theorem noticeForDelay_work (id delay : Nat) (s : State) : DayWork s (noticeForDelay id delay s).1 := by
  unfold noticeForDelay
  split
  · exact retireDelayed_work _ id s
  · split
    · refine DayWork.trans ?_ (.raise _ _ _ _ _)
      exact .setNotices (by simp) fun h => h
    · exact createDelayed_work id delay s

theorem noticeMinute_work (source : Notice → Source) (s : State) : DayWork s (noticeMinute source s) := by
  unfold noticeMinute
  refine DayWork.trans ?_ (judgeTakeover_work _)
  refine DayWork.trans ?_ (freeNotices_work _ _)
  refine DayWork.trans ?_ (judgeTakeover_work _)
  refine DayWork.trans ?_ (DayWork.foldl (fun t (n : Notice) => raise (source n) .noticeState n.id noticeExpired t)
    (fun t n => .raise _ _ _ _ t) _ _)
  refine DayWork.trans ?_ (DayWork.foldl (fun t (n : Notice) => raise (source n) .noticeState n.id noticeActive t)
    (fun t n => .raise _ _ _ _ t) _ _)
  exact .setNotices (by simp) id

/-! ### Showings and seats -/

theorem changeSeats_work (g : Source) (id : Nat) (f : Showing → Showing) (s : State) : DayWork s (changeSeats g id f s) := by
  unfold changeSeats
  split
  · exact .refl s
  next x _ =>
    dsimp only
    have changed : DayWork s (s.modShowing id fun _ => (f x).inLine s.figure s.cal.m) := .modShowing _ _ s
    split <;> split
    · exact changed.trans ((DayWork.raise _ _ _ _ _).trans (.raise _ _ _ _ _))
    · exact changed.trans (.raise _ _ _ _ _)
    · exact changed.trans (.raise _ _ _ _ _)
    · exact changed

theorem recomputeFast_work (id : Nat) (s : State) : DayWork s (recomputeFast id s) := .modShowing _ _ s

theorem journalShowing_work (g : Source) (kind : JournalKind) (id count : Nat) (s : State) :
    DayWork s (journalShowing g kind id count s) := by
  unfold journalShowing
  split
  · exact .journalize _ _ s
  · exact .refl s

theorem seatChange_work (kind : JournalKind) (id count : Nat) (f : Showing → Showing) (s : State) :
    DayWork s (seatChange kind id count f s) :=
  (changeSeats_work _ id f s).trans (journalShowing_work _ _ _ _ _)

theorem endHolds_work (g : Source) (reason : Nat) (kind : JournalKind) (id : Nat) (ended : List Hold) (f : Showing → Showing)
    (s : State) : DayWork s (endHolds g reason kind id ended f s) := by
  unfold endHolds
  split
  · exact .refl s
  · dsimp only
    refine DayWork.trans ?_ (changeSeats_work _ _ _ _)
    refine DayWork.trans ?_ (DayWork.foldl _ (fun t e => .journalize _ _ t) _ _)
    refine DayWork.trans ?_ (DayWork.foldl _ (fun t h => .raise _ _ _ _ t) _ _)
    exact (DayWork.chosen (s.choice + ended.length) s).trans (.setHolds (List.length_filter_le _ _))

theorem releaseHolds_work (g : Source) (reason : Nat) (kind : JournalKind) (id : Nat) (s : State) :
    DayWork s (releaseHolds g reason kind id s) := endHolds_work _ _ _ _ _ _ s

theorem expireHolds_work (source : Nat → Source) (s : State) : DayWork s (expireHolds source s) :=
  DayWork.foldl _ (fun t _ => endHolds_work _ _ _ _ _ _ t) _ s

theorem paceMinute_work (s : State) : DayWork s (paceMinute s) := .setShowings (by simp)

theorem countDown_work (s : State) : DayWork s (countDown s) := .setHolds (by simp)

theorem dropHold_work (h : Hold) (reason : Nat) (s : State) : DayWork s (dropHold h reason s) :=
  (DayWork.setHolds (List.length_filter_le _ _)).trans (.raise _ _ _ _ _)

theorem enterState_work (id : Nat) (st : ShowState) (s : State) : DayWork s (enterState id st s) :=
  (DayWork.modShowing id _ s).trans ((DayWork.raise _ _ _ _ _).trans (recomputeFast_work id _))

theorem transitionTo_work (id : Nat) (st : ShowState) (s : State) : DayWork s (transitionTo id st s) := by
  cases st with
  | planned => exact enterState_work id _ s
  | onSale => exact enterState_work id _ s
  | seating => exact enterState_work id _ s
  | started => exact (enterState_work id _ s).trans (retireDelayed_work _ id _)
  | closed => exact (enterState_work id _ s).trans (releaseHolds_work _ _ _ id _)
  | ended => exact (DayWork.modShowing id _ s).trans ((enterState_work id _ _).trans (retireLinked_work id _))
  | cancelled => exact enterState_work id _ s

theorem freeShowing_work (x : Showing) (s : State) : DayWork s (freeShowing x s) :=
  (DayWork.raise _ _ _ _ _).trans ((retireLinked_work x.id _).trans (.setShowings (List.length_filter_le _ _)))

theorem judgeShowing_work (k id : Nat) (s : State) : DayWork s (judgeShowing k id s) := by
  induction k generalizing s with
  | zero => exact .refl s
  | succ k ih =>
    unfold judgeShowing
    split
    · exact .refl s
    · split
      · exact .refl s
      · exact (transitionTo_work id _ s).trans (ih _)
      · exact freeShowing_work _ s

theorem judgeAll_work (s : State) : DayWork s (judgeAll s) :=
  DayWork.foldl _ (fun t id => judgeShowing_work lifeSteps id t) _ s

theorem inAnyOrder_work (g : Source) {f : State → State} (hf : ∀ s, DayWork s (f s)) (s : State) :
    DayWork s (inAnyOrder g f s) := by
  have cleared : DayWork s { s with outbox := [] } := ⟨rfl, id, id, id, id, rfl, id, rfl, rfl⟩
  exact (cleared.trans (hf _)).trans ⟨rfl, id, id, id, id, rfl, id, rfl, rfl⟩

/-! ### The minute event and the settings -/

theorem deliverMinute_work (s : State) : DayWork s (deliverMinute s) := by
  unfold deliverMinute
  dsimp only
  split
  · refine DayWork.trans ((DayWork.chosen (s.choice + 1) s).trans ?_) (paceMinute_work _)
    split
    · exact (judgeAll_work _).trans (noticeMinute_work _ _)
    · exact (noticeMinute_work _ _).trans (judgeAll_work _)
  · exact (judgeAll_work s).trans ((noticeMinute_work _ _).trans (paceMinute_work _))

theorem minuteWithExpiry_work (s : State) : DayWork s (minuteWithExpiry s) := by
  unfold minuteWithExpiry
  dsimp only
  split
  · refine (DayWork.chosen (s.choice + 1) s).trans ?_
    split
    · exact (expireHolds_work _ _).trans (deliverMinute_work _)
    · exact (deliverMinute_work _).trans (expireHolds_work _ _)
  · exact (expireHolds_work _ s).trans (deliverMinute_work _)

theorem recomputeBand_work (source : Nat → Source) (s : State) (id : Nat) : DayWork s (recomputeBand source s id) := by
  unfold recomputeBand
  split
  · exact .refl s
  · dsimp only
    split
    · exact .refl s
    · exact (DayWork.modShowing id _ s).trans (.raise _ _ _ _ _)

theorem joinBands_work (first : Bool) (bands : List (Source × EventRecord)) (s : State) :
    DayWork s (joinBands first bands s) := by
  obtain ⟨box, k, h⟩ := joinBands_rest first bands s
  rw [h]
  exact ⟨rfl, id, id, id, id, rfl, id, rfl, rfl⟩

end Sys2Proof.Machine
end

section
/-! PROOFS, what every command but the resets keeps: the queue of commands, the roles, the sizes, the date, the settings and the
profiles. One relation, shown once of every operation; the invariants of every step are read off from it. -/

namespace Sys2Proof.Machine

/-! ### The relation -/

/-- The sizes and bounds of Shape, the arrival in progress apart: they hold in the middle of an arrival too. -/
structure State.Fits (s : State) : Prop where
  auditoriums : s.catalogue.auditoriums.length = 24
  features : s.catalogue.features.length = 128
  texts : s.catalogue.texts.length = 384
  carousels : s.carousels.length = 8
  plays : s.plays.length = 12
  panels : s.panels.length = 12
  links : s.links.length = 12
  takeover : s.notices.takeover.length = 12
  showings : s.showings.length ≤ 192
  holds : s.holds.length ≤ 96
  filling : s.journal.filling.length ≤ 128
  closed : s.journal.closed.length ≤ 128
  notices : s.notices.table.length ≤ 32
  rings : ∀ c ∈ s.carousels, c.ring.length ≤ 32
  queueA : s.queues.a.Bounded
  queueB : s.queues.b.Bounded
  queueC : s.queues.c.Bounded
  freshA : s.ports.a.Fresh
  freshB : s.ports.b.Fresh
  freshC : s.ports.c.Fresh

theorem State.Shape.fits {s : State} (h : s.Shape) : s.Fits := { h with }

theorem State.Fits.shape {s : State} (h : s.Fits) (hs : s.Settled) : s.Shape := { h with settled := hs }

/-- What every command but the resets keeps. -/
structure Kept (s t : State) : Prop where
  pending : t.pending = s.pending
  roles : ∀ p, (t.port p).role = (s.port p).role
  fits : s.Fits → t.Fits
  dated : s.Dated → t.Dated
  ranged : s.Ranged → t.Ranged
  profiled : s.Profiled → t.Profiled

theorem Kept.refl (s : State) : Kept s s := ⟨rfl, fun _ => rfl, id, id, id, id⟩

theorem Kept.trans {s t u : State} (h : Kept s t) (k : Kept t u) : Kept s u where
  pending := k.pending.trans h.pending
  roles p := (k.roles p).trans (h.roles p)
  fits := k.fits ∘ h.fits
  dated := k.dated ∘ h.dated
  ranged := k.ranged ∘ h.ranged
  profiled := k.profiled ∘ h.profiled

theorem Kept.foldl {α : Type} (f : State → α → State) (h : ∀ s x, Kept s (f s x)) (l : List α) (s : State) :
    Kept s (l.foldl f s) :=
  foldl_rel Kept .refl .trans f h l s

theorem Kept.ite {s t u : State} (c : Prop) [Decidable c] (h : Kept s t) (k : Kept s u) : Kept s (if c then t else u) := by
  split
  · exact h
  · exact k

/-- The date and M are read from the calendar alone. -/
theorem State.Dated.congr {s t : State} (h : t.cal = s.cal) (d : s.Dated) : t.Dated :=
  ⟨h ▸ d.year, h ▸ d.month, h ▸ d.day, h ▸ d.hour, h ▸ d.minute, h ▸ d.second, h ▸ d.limit, h ▸ d.unset⟩

/-- The settings are read from five places. -/
theorem State.Ranged.congr {s t : State} (h : t.cal.h0 = s.cal.h0 ∧ t.cal.openMin = s.cal.openMin ∧ t.cal.closeMin = s.cal.closeMin)
    (hl : t.life = s.life) (hf : t.figure = s.figure) (hw : t.watch.period = s.watch.period)
    (hp : t.framePeriod = s.framePeriod) (r : s.Ranged) : t.Ranged := by
  obtain ⟨h0, ho, hc⟩ := h
  exact ⟨h0 ▸ r.h0, ho ▸ hc ▸ r.hours, hl ▸ r.lead, hl ▸ r.late, hl ▸ r.linger, hf ▸ r.f1, hf ▸ r.f2, hf ▸ r.w, hf ▸ r.k,
    hf ▸ r.dc, hw ▸ r.watch, hp ▸ r.frame⟩

/-- The profiles are read from the panels' profiles alone. -/
theorem State.Profiled.congr {s t : State} (h : t.panels.map Panel.profile = s.panels.map Panel.profile) (k : s.Profiled) :
    t.Profiled := by
  intro c hc
  have : c.profile ∈ s.panels.map Panel.profile := h ▸ List.mem_map_of_mem hc
  obtain ⟨d, hd, e⟩ := List.mem_map.1 this
  exact e ▸ k d hd

/-- A day's work keeps all of it. -/
theorem DayWork.kept {s t : State} (h : DayWork s t) : Kept s t where
  pending := h.frame.pending
  roles p := by rw [State.port, h.frame.ports]; rfl
  fits f :=
    { auditoriums := h.frame.catalogue ▸ f.auditoriums
      features := h.frame.catalogue ▸ f.features
      texts := h.frame.catalogue ▸ f.texts
      carousels := h.carousels ▸ f.carousels
      plays := h.plays ▸ f.plays
      panels := by
        have := congrArg List.length h.profiles
        simp only [List.length_map] at this
        exact this ▸ f.panels
      links := h.frame.links ▸ f.links
      takeover := h.takeover f.takeover
      showings := h.showings f.showings
      holds := h.holds f.holds
      filling := h.frame.journal ▸ f.filling
      closed := h.frame.journal ▸ f.closed
      notices := h.notices f.notices
      rings := h.rings f.rings
      queueA := h.frame.queues ▸ f.queueA
      queueB := h.frame.queues ▸ f.queueB
      queueC := h.frame.queues ▸ f.queueC
      freshA := h.frame.ports ▸ f.freshA
      freshB := h.frame.ports ▸ f.freshB
      freshC := h.frame.ports ▸ f.freshC }
  dated := .congr h.frame.cal
  ranged := .congr ⟨by rw [h.frame.cal], by rw [h.frame.cal], by rw [h.frame.cal]⟩ h.frame.life h.frame.figure
    (by rw [h.frame.watch]) h.frame.framePeriod
  profiled := .congr h.profiles

/-! ### The end of an arrival, and the ports -/

theorem settle_kept (s : State) : Kept s (settle s) where
  pending := rfl
  roles _ := rfl
  fits f := by
    obtain ⟨ha, hb, hc⟩ := foldl_offerAll_bounded s.ports s.settledRecords f.queueA f.queueB f.queueC
    obtain ⟨hf, hclosed⟩ := foldl_append_bounded ((arrange s.choice s.journalBox).map fun x => x.2) f.filling
    exact { f with filling := hf, closed := le_of_eq_of_le (congrArg List.length hclosed) f.closed, queueA := ha, queueB := hb, queueC := hc }
  dated := .congr rfl
  ranged := .congr ⟨rfl, rfl, rfl⟩ rfl rfl rfl rfl
  profiled := .congr rfl

theorem modPort_kept (p : Port) {f : PortState → PortState} (s : State) (hr : ∀ x, (f x).role = x.role)
    (hf : ∀ x, x.Fresh → (f x).Fresh) : Kept s (s.modPort p f) where
  pending := rfl
  roles q := State.role_modPort p q f s hr
  fits k := by
    cases p with
    | a => exact { k with freshA := hf _ k.freshA }
    | b => exact { k with freshB := hf _ k.freshB }
    | c => exact { k with freshC := hf _ k.freshC }
  dated := .congr rfl
  ranged := .congr ⟨rfl, rfl, rfl⟩ rfl rfl rfl rfl
  profiled := .congr rfl

theorem clockOut_fresh (n : Nat) {ps : PortState} (h : ps.Fresh) : (clockOut n ps).Fresh := by
  unfold clockOut
  split
  · split
    · obtain ⟨role, reply, chip⟩ := ps
      cases chip <;> exact h
    · exact h
  · exact h

theorem deselect_fresh (ps : PortState) : (deselect ps).Fresh := ⟨rfl, rfl⟩

theorem assertSelect_fresh (line : ResetLine) {ps : PortState} (h : ps.Fresh) : (assertSelect line ps).Fresh := by
  unfold assertSelect
  split
  · exact ⟨rfl, rfl⟩
  · exact ⟨rfl, rfl⟩
  · exact h
  · exact h

theorem assertSelect_role (line : ResetLine) (ps : PortState) : (assertSelect line ps).role = ps.role := by
  unfold assertSelect
  split <;> rfl

theorem deselect_kept (p : Port) (s : State) : Kept s (s.modPort p deselect) :=
  modPort_kept p s (fun _ => rfl) fun x _ => deselect_fresh x

theorem clockOut_kept (p : Port) (n : Nat) (s : State) : Kept s (s.modPort p (clockOut n)) :=
  modPort_kept p s (fun x => clockOut_role n x) fun _ h => clockOut_fresh n h

theorem setWatch_kept {s : State} {w : Watch} (h : w.period = s.watch.period) : Kept s { s with watch := w } where
  pending := rfl
  roles _ := rfl
  fits k := { k with }
  dated := .congr rfl
  ranged := .congr ⟨rfl, rfl, rfl⟩ rfl rfl h rfl
  profiled := .congr rfl

theorem signOfLife_kept (p : Port) (s : State) : Kept s (signOfLife p s) := by
  unfold signOfLife
  split
  · split
    · exact setWatch_kept rfl
    · refine Kept.trans (setWatch_kept ?_) ((DayWork.raise _ _ _ _ _).kept.trans (settle_kept _))
      rfl
  · exact .refl s

/-- A transaction keeps what the handling of its message keeps. -/
theorem transaction_kept (p : Port) (n : Nat) {handle : State → Option Reply × State} (h : ∀ u, Kept u (handle u).2)
    (s : State) : Kept s (transaction p n handle s) := by
  unfold transaction
  split
  · have heard : Kept s (signOfLife p (s.modPort p (clockOut n))) := (clockOut_kept p n s).trans (signOfLife_kept p _)
    have handled := heard.trans ((h _).trans (settle_kept _))
    dsimp only
    split
    · exact handled.trans (modPort_kept p _ (fun _ => rfl) fun x _ => deselect_fresh _)
    · exact handled.trans (deselect_kept p _)
  · exact deselect_kept p s

/-- A request keeps what its rule keeps. -/
theorem request_kept (t : Txn) (n kind : Nat) (roles : List Role) {body : State → Answer × State}
    (h : ∀ u, Kept u (body u).2) (s : State) : Kept s (request t n kind roles body s) := by
  refine transaction_kept t.port _ (fun u => ?_) s
  dsimp only
  split
  · exact h u
  · exact .refl u

/-- A refused request keeps all: it leaves the state as it is. -/
theorem Kept.refused {body : State → Answer × State} {s : State} {a : Answer} (h : body s = (a, s)) : Kept s (body s).2 := by
  rw [h]
  exact .refl s

/-! ### The calendar -/

/-- A calendar whose date and settings are kept by the change. -/
theorem setCal_kept {s : State} {c : Calendar} (hd : s.Dated → State.Dated { s with cal := c })
    (hr : c.h0 = s.cal.h0 ∧ c.openMin = s.cal.openMin ∧ c.closeMin = s.cal.closeMin) : Kept s { s with cal := c } where
  pending := rfl
  roles _ := rfl
  fits k := { k with }
  dated := hd
  ranged := .congr hr rfl rfl rfl rfl
  profiled := .congr rfl

theorem setHushWake_kept (hush wake : Bool) (s : State) : Kept s (setHushWake hush wake s) := by
  have stored : Kept s { s with cal := { s.cal with hush, wake } } := setCal_kept (fun d => { d with }) ⟨rfl, rfl, rfl⟩
  unfold setHushWake
  dsimp only
  split
  · exact stored
  · exact stored.trans ((DayWork.raise _ _ _ _ _).trans (judgeHushAll_work _)).kept

theorem dayStartTest_kept (s : State) : Kept s (dayStartTest s) := by
  unfold dayStartTest
  split
  · refine Kept.trans (setCal_kept ?_ ?_) (DayWork.raise _ _ _ _ _).kept
    · exact fun d => { d with }
    · exact ⟨rfl, rfl, rfl⟩
  · exact .refl s

theorem lobbyCrossing_kept (s : State) : Kept s (lobbyCrossing s) := by
  unfold lobbyCrossing
  dsimp only
  split
  · exact .refl s
  · split
    · exact setHushWake_kept _ _ s
    · exact .ite _ (setHushWake_kept _ _ s) (.refl s)

theorem calendarMinute_kept (s : State) : Kept s (calendarMinute s) := (dayStartTest_kept s).trans (lobbyCrossing_kept _)

/-- The date after a real date is a real date (R1). -/
theorem nextDate_real {y m : Nat} (hy : 2000 ≤ y ∧ y ≤ 2099) (hm : 1 ≤ m ∧ m ≤ 12) (d : Nat) :
    (2000 ≤ (nextDate y m d).1 ∧ (nextDate y m d).1 ≤ 2099) ∧ (1 ≤ (nextDate y m d).2.1 ∧ (nextDate y m d).2.1 ≤ 12) ∧
      (1 ≤ (nextDate y m d).2.2 ∧ (nextDate y m d).2.2 ≤ monthLength (nextDate y m d).1 (nextDate y m d).2.1) := by
  have first : ∀ y' m', 1 ≤ monthLength y' m' := by
    intro y' m'
    unfold monthLength
    split
    · split <;> omega
    · split <;> omega
  unfold nextDate
  split
  next hlt => exact ⟨hy, hm, Nat.succ_pos _, hlt⟩
  · split
    next hlt => exact ⟨hy, ⟨Nat.succ_pos _, hlt⟩, le_rfl, first _ _⟩
    · split
      next hlt => exact ⟨⟨by omega, hlt⟩, by simp, le_rfl, first _ _⟩
      · exact ⟨by simp, by simp, le_rfl, first _ _⟩

/-- The calendar one minute on is a real instant again, with the second field at 0 (R1). -/
theorem Dated.nextMinute {s : State} (d : s.Dated) : State.Dated { s with cal := s.cal.nextMinute } := by
  unfold Calendar.nextMinute
  split
  · exact { d with minute := by simpa using ‹s.cal.minute < 59›, second := Nat.zero_le _ }
  · split
    · exact { d with hour := by simpa using ‹s.cal.hour < 23›, minute := Nat.zero_le _, second := Nat.zero_le _ }
    · obtain ⟨hy, hm, hd⟩ := nextDate_real d.year d.month s.cal.day
      exact { d with year := hy, month := hm, day := hd, hour := Nat.zero_le _, minute := Nat.zero_le _, second := Nat.zero_le _ }

theorem Calendar.nextMinute_settings (c : Calendar) :
    c.nextMinute.h0 = c.h0 ∧ c.nextMinute.openMin = c.openMin ∧ c.nextMinute.closeMin = c.closeMin ∧
      c.nextMinute.clock = c.clock ∧ c.nextMinute.m = c.m := by
  unfold Calendar.nextMinute
  split
  · exact ⟨rfl, rfl, rfl, rfl, rfl⟩
  · split <;> exact ⟨rfl, rfl, rfl, rfl, rfl⟩

theorem Calendar.tick_settings (c : Calendar) :
    c.tick.1.h0 = c.h0 ∧ c.tick.1.openMin = c.openMin ∧ c.tick.1.closeMin = c.closeMin := by
  obtain ⟨h0, ho, hc, -, -⟩ := c.nextMinute_settings
  unfold Calendar.tick
  split
  · exact ⟨rfl, rfl, rfl⟩
  · split
    · exact ⟨rfl, rfl, rfl⟩
    · dsimp only
      split
      · exact ⟨h0, ho, hc⟩
      · split <;> exact ⟨h0, ho, hc⟩

theorem Dated.tick {s : State} (d : s.Dated) : State.Dated { s with cal := s.cal.tick.1 } := by
  obtain ⟨-, -, -, hclock, hm⟩ := s.cal.nextMinute_settings
  have n := Dated.nextMinute d
  unfold Calendar.tick
  split
  · exact { d with second := by simpa using ‹s.cal.second < 59› }
  · split
    · exact { d with second := Nat.zero_le _ }
    next hrun =>
      have unset : ∀ {k : Nat}, s.cal.nextMinute.clock = .unset → k = 0 := fun e => by
        rw [hclock, hrun] at e
        cases e
      dsimp only
      split
      · exact n
      · split
        next hlt => exact { n with limit := by simpa [Config.limitM] using hlt, unset := fun e => unset e }
        · exact { n with unset := fun e => unset e }

theorem tick_kept (s : State) : Kept s { s with cal := s.cal.tick.1 } := setCal_kept Dated.tick s.cal.tick_settings

theorem Panel.second_profile (c : Panel) : c.second.profile = c.profile := by
  unfold Panel.second
  split <;> rfl

theorem watchSecond_kept (s : State) : Kept s (watchSecond s) := by
  unfold watchSecond
  split
  · exact .refl s
  · split
    · refine Kept.trans (setWatch_kept ?_) (DayWork.raise _ _ _ _ _).kept
      rfl
    · exact setWatch_kept rfl

theorem setDeferred_kept (l : List EventRecord) (s : State) : Kept s { s with deferred := l } where
  pending := rfl
  roles _ := rfl
  fits k := { k with }
  dated := .congr rfl
  ranged := .congr ⟨rfl, rfl, rfl⟩ rfl rfl rfl rfl
  profiled := .congr rfl

theorem secondEvent_kept (s : State) : Kept s (secondEvent s) := by
  unfold secondEvent
  split
  next kind _ =>
    cases kind with
    | powerOn => exact .refl s
    | pin =>
      unfold secondInReset secondInPinReset
      dsimp only
      split
      · exact (tick_kept s).trans (setDeferred_kept _ _)
      · exact tick_kept s
      · exact tick_kept s
  · dsimp only
    have counted := (tick_kept s).trans (countDown_work _).kept
    have panels : ∀ u : State, Kept u { u with panels := u.panels.map Panel.second } := fun u =>
      DayWork.kept ⟨rfl, id, id, id, id, rfl, id, rfl, by simp [Function.comp_def, Panel.second_profile]⟩
    refine Kept.trans ?_ (settle_kept _)
    refine Kept.trans ?_ (panels _)
    refine Kept.trans ?_ (watchSecond_kept _)
    split
    · exact counted.trans (expireHolds_work _ _).kept
    · exact counted.trans ((DayWork.raise _ _ _ _ _).trans (expireHolds_work _ _)).kept
    · exact counted.trans ((calendarMinute_kept _).trans (minuteWithExpiry_work _).kept)

theorem realInstant_iff (f : TimeFields) : realInstant f = true ↔
    2000 ≤ f.year.toNat ∧ f.year.toNat ≤ 2099 ∧ 1 ≤ f.month.toNat ∧ f.month.toNat ≤ 12 ∧ 1 ≤ f.day.toNat
    ∧ f.day.toNat ≤ monthLength f.year.toNat f.month.toNat ∧ f.hour.toNat ≤ 23 ∧ f.minute.toNat ≤ 59 ∧ f.second.toNat ≤ 59 := by
  simp only [realInstant, decide_eq_true_iff]

/-- A calendar set to a real instant with M in its range and the clock running. -/
theorem Dated.setInstant {s : State} {f : TimeFields} (hf : realInstant f = true) {m : Nat} (hm : m ≤ 1048575) (d0 : Int)
    {clock : ClockState} (hc : clock = .running) :
    State.Dated { s with cal := { s.cal.setInstant f with clock, m, d0 } } := by
  obtain ⟨y1, y2, m1, m2, d1, d2, hh, hmin, hs⟩ := (realInstant_iff f).1 hf
  exact ⟨⟨y1, y2⟩, ⟨m1, m2⟩, ⟨d1, d2⟩, hh, hmin, hs, hm, fun e => by rw [hc] at e; cases e⟩

theorem hushFrom_kept (w : Nat) (wake : Bool) (s : State) : Kept s (hushFrom w wake s) := setHushWake_kept _ _ s

/-- What the checks of SET TIME leave to be carried out (R7). -/
theorem timeRefusal_none {s : State} {f : TimeFields} (h : s.timeRefusal f = none) :
    realInstant f = true ∧ s.cal.held = false ∧
      (s.cal.clock = .running → 0 ≤ (s.cal.m : Int) + s.cal.delta f ∧ (s.cal.m : Int) + s.cal.delta f ≤ 1048575) := by
  unfold State.timeRefusal at h
  split at h
  · cases h
  next hr =>
    split at h
    · cases h
    next hh =>
      refine ⟨by simpa using hr, by simpa using hh, fun hc => ?_⟩
      rw [hc] at h
      dsimp only at h
      split at h
      · cases h
      · simp only [Config.limitM] at *
        omega

theorem setTime_kept (f : TimeFields) (s : State) : Kept s (setTime f s).2 := by
  unfold setTime
  split
  · exact .refl s
  next hnone =>
    obtain ⟨hreal, -, hrange⟩ := timeRefusal_none hnone
    split
    next hunset =>
      refine Kept.trans (setCal_kept (fun _ => Dated.setInstant hreal ?_ _ rfl) ⟨rfl, rfl, rfl⟩) (hushFrom_kept _ _ _)
      obtain ⟨-, -, -, -, -, -, hh, hmin, -⟩ := (realInstant_iff f).1 hreal
      simp only [Calendar.wall, Calendar.setInstant]
      omega
    next hrun =>
      obtain ⟨-, hmax⟩ := hrange hrun
      have moved : ∀ d0 : Int, Kept s { s with cal :=
          { s.cal.setInstant f with m := ((s.cal.m : Int) + s.cal.delta f).toNat, d0 } } := fun d0 =>
        setCal_kept (fun _ => Dated.setInstant hreal (by omega) d0 hrun) ⟨rfl, rfl, rfl⟩
      refine Kept.ite _ ?_ ((moved _).trans (hushFrom_kept _ _ _))
      refine Kept.trans ?_ (hushFrom_kept _ _ _)
      exact ((moved _).trans (deliverMinute_work _).kept).trans (.ite _ (DayWork.raise _ _ _ _ _).kept (.refl _))

/-! ### The board -/

theorem clamp_bounds {lo hi : Nat} (h : lo ≤ hi) (n : Nat) : lo ≤ clamp lo hi n ∧ clamp lo hi n ≤ hi := by
  unfold clamp
  omega

theorem carried_bounds {w : Nat} (o : Option (BitVec w)) {lo hi old : Nat} (h : lo ≤ hi) (hold : lo ≤ old ∧ old ≤ hi) :
    lo ≤ carried o lo hi old ∧ carried o lo hi old ≤ hi := by
  cases o with
  | none => exact hold
  | some x => exact clamp_bounds h _

/-- A state whose settings are replaced by others in their ranges keeps its date, its sizes and its profiles. -/
theorem setSettings_kept {s : State} {l : LifeSettings} {g : FigureSettings} {w : Watch} {period : Nat}
    (h : s.Ranged → State.Ranged { s with life := l, figure := g, watch := w, framePeriod := period }) :
    Kept s { s with life := l, figure := g, watch := w, framePeriod := period } where
  pending := rfl
  roles _ := rfl
  fits k := { k with }
  dated := .congr rfl
  ranged := h
  profiled := .congr rfl

theorem boardLife_ranged (f : BoardFields) {s : State} (r : s.Ranged) :
    State.Ranged { s with life := boardLife f s.life } where
  h0 := r.h0
  hours := r.hours
  lead := (carried_bounds f.lead (Nat.zero_le 60) ⟨Nat.zero_le _, r.lead⟩).2
  late := (carried_bounds f.late (Nat.zero_le 30) ⟨Nat.zero_le _, r.late⟩).2
  linger := carried_bounds f.linger (by decide) r.linger
  f1 := r.f1
  f2 := r.f2
  w := r.w
  k := r.k
  dc := r.dc
  watch := r.watch
  frame := r.frame

theorem boardF2_bounds (o : Option Half) {f1 old : Nat} (hf : f1 ≤ 998) (hold : old ≤ 999) :
    f1 < boardF2 o f1 old ∧ boardF2 o f1 old ≤ 999 := by
  cases o with
  | none => simp only [boardF2]; split <;> omega
  | some x => simp only [boardF2, clamp]; omega

theorem boardFigure_ranged (f : BoardFields) {s : State} (r : s.Ranged) :
    State.Ranged { s with figure := boardFigure f s.figure } where
  h0 := r.h0
  hours := r.hours
  lead := r.lead
  late := r.late
  linger := r.linger
  f1 := carried_bounds f.f1 (by decide) r.f1
  f2 := boardF2_bounds f.f2 (carried_bounds f.f1 (by decide) r.f1).2 r.f2.2
  w := (carried_bounds f.w (Nat.zero_le 100) ⟨Nat.zero_le _, r.w⟩).2
  k := (carried_bounds f.k (Nat.zero_le 50) ⟨Nat.zero_le _, r.k⟩).2
  dc := carried_bounds f.dc (by decide) r.dc
  watch := r.watch
  frame := r.frame

theorem boardFrame_bounds (o : Option Half) {old : Nat} (h : 200 ≤ old ∧ old ≤ 1000 ∧ old % 50 = 0) :
    200 ≤ boardFrame o old ∧ boardFrame o old ≤ 1000 ∧ boardFrame o old % 50 = 0 := by
  cases o with
  | none => exact h
  | some x => simp only [boardFrame, Option.elim, clamp]; omega

theorem boardWatch_period (o : Option Half) (w : Watch) : (boardWatch o w).period = carried o 5 300 w.period := by
  unfold boardWatch
  dsimp only
  split <;> rfl

theorem storeCalendar_kept (f : BoardFields) (s : State) : Kept s { s with cal := storeCalendar f s.cal } where
  pending := rfl
  roles _ := rfl
  fits k := { k with }
  dated d := { d with }
  ranged r := { r with
    h0 := (carried_bounds f.h0 (Nat.zero_le 23) ⟨Nat.zero_le _, r.h0⟩).2
    hours := ⟨(carried_bounds f.openMin (Nat.zero_le 1439) ⟨Nat.zero_le _, r.hours.1⟩).2,
      (carried_bounds f.closeMin (Nat.zero_le 1439) ⟨Nat.zero_le _, r.hours.2⟩).2⟩ }
  profiled := .congr rfl

theorem boardCalendar_kept (f : BoardFields) (s : State) : Kept s (boardCalendar f s) := by
  unfold boardCalendar
  exact (storeCalendar_kept f s).trans (.ite _ (.refl _) (setHushWake_kept _ _ _))

/-! ### SET BOARD's two owners -/

theorem DayWork.withFigure {s t : State} (h : DayWork s t) (g : FigureSettings) :
    DayWork { s with figure := g } { t with figure := g } :=
  { h with frame := by rw [h.frame]; exact rfl }

theorem DayWork.withLife {s t : State} (h : DayWork s t) (l : LifeSettings) :
    DayWork { s with life := l } { t with life := l } :=
  { h with frame := by rw [h.frame]; exact rfl }

theorem boardLifecycle_work (l : LifeSettings) (s : State) : DayWork { s with life := l } (boardLifecycle l s) := by
  unfold boardLifecycle
  split
  next h => exact h ▸ .refl s
  · exact DayWork.trans (DayWork.setShowings (s := { s with life := l }) (by simp)) (judgeAll_work _)

theorem boardBands_work (source : Nat → Source) (g : FigureSettings) (s : State) :
    DayWork { s with figure := g } (boardBands source g s) := by
  unfold boardBands
  exact .ite _ (DayWork.foldl _ (fun t i => recomputeBand_work source t i) _ _) (.refl _)

/-- Whichever of its owners is taken first, a SET BOARD stores the settings of both, and beyond them does a day's work. -/
theorem boardShowings_work (l : LifeSettings) (g : FigureSettings) (s : State) :
    DayWork { s with life := l, figure := g } (boardShowings l g s) := by
  have chosen : ∀ (u : State) (o : List (Source × EventRecord)) (c : Nat), DayWork u { u with outbox := o, choice := c } :=
    fun u o c => (DayWork.refl u).boxes o u.journalBox c
  unfold boardShowings
  dsimp only
  split
  · split
    · refine DayWork.trans ?_ (joinBands_work false _ _)
      refine DayWork.trans ?_ (chosen _ _ _)
      refine DayWork.trans ?_ (boardBands_work _ _ _)
      refine DayWork.withFigure (s := { s with life := l }) ?_ g
      refine DayWork.trans ?_ (chosen _ _ _)
      exact ((chosen s s.outbox (s.choice + 1)).withLife l).trans (boardLifecycle_work l _)
    · refine DayWork.trans ?_ (joinBands_work true _ _)
      refine DayWork.trans ?_ (boardLifecycle_work l _)
      refine DayWork.withLife (s := { s with figure := g }) ?_ l
      refine DayWork.trans ?_ (chosen _ _ _)
      exact ((chosen s [] (s.choice + 1)).withFigure g).trans (boardBands_work _ g _)
  · exact ((boardLifecycle_work l s).withFigure g).trans (boardBands_work _ g _)

end Sys2Proof.Machine
end

section
/-! PROOFS, what every request and every arrival of a link keeps; and with it what every command keeps. -/

namespace Sys2Proof.Machine

/-! ### SET BOARD and BOARD CLEAR -/

theorem boardSettings_ranged (f : BoardFields) {s : State} (r : s.Ranged) :
    State.Ranged { s with
      life := boardLife f s.life, figure := boardFigure f s.figure, watch := boardWatch f.watch s.watch,
      framePeriod := boardFrame f.frame s.framePeriod } :=
  have hl := boardLife_ranged f r
  have hf := boardFigure_ranged f r
  { h0 := r.h0, hours := r.hours, lead := hl.lead, late := hl.late, linger := hl.linger, f1 := hf.f1, f2 := hf.f2, w := hf.w,
    k := hf.k, dc := hf.dc
    watch := by
      show 5 ≤ (boardWatch f.watch s.watch).period ∧ (boardWatch f.watch s.watch).period ≤ 300
      rw [boardWatch_period]
      exact carried_bounds f.watch (by decide) r.watch
    frame := boardFrame_bounds f.frame r.frame }

theorem setHushWake_frame (hush wake : Bool) (s : State) :
    DayWork { s with cal := { s.cal with hush, wake } } (setHushWake hush wake s) := by
  unfold setHushWake
  dsimp only
  split
  · exact .refl _
  · exact (DayWork.raise _ _ _ _ _).trans (judgeHushAll_work _)

theorem boardCalendar_frame (f : BoardFields) (s : State) :
    ∃ c, DayWork { s with cal := c } (boardCalendar f s) := by
  unfold boardCalendar
  dsimp only
  split
  · exact ⟨_, .refl _⟩
  · exact ⟨{ storeCalendar f s.cal with hush := (storeCalendar f s.cal).hoursHush, wake := false },
      setHushWake_frame _ _ { s with cal := storeCalendar f s.cal }⟩

theorem DayWork.withSettings {s t : State} (h : DayWork s t) (w : Watch) (period : Nat) :
    DayWork { s with watch := w, framePeriod := period } { t with watch := w, framePeriod := period } :=
  { h with frame := by rw [h.frame]; exact rfl }

theorem setBoard_kept (f : BoardFields) (s : State) : Kept s (setBoard f s).2 := by
  unfold setBoard
  split
  · exact .refl s
  · dsimp only
    obtain ⟨c, hc⟩ := boardCalendar_frame f s
    have worked := boardShowings_work (boardLife f s.life) (boardFigure f s.figure) (boardCalendar f s)
    have hl : (boardCalendar f s).life = s.life := hc.frame.life
    have hf : (boardCalendar f s).figure = s.figure := hc.frame.figure
    have hw : (boardShowings (boardLife f s.life) (boardFigure f s.figure) (boardCalendar f s)).watch = (boardCalendar f s).watch :=
      worked.frame.watch
    have hp : (boardShowings (boardLife f s.life) (boardFigure f s.figure) (boardCalendar f s)).framePeriod =
      (boardCalendar f s).framePeriod := worked.frame.framePeriod
    rw [hw, hp]
    refine (boardCalendar_kept f s).trans (Kept.trans ?_ (worked.withSettings _ _).kept)
    refine setSettings_kept fun r => ?_
    have := boardSettings_ranged f r
    rwa [hl, hf] at this

theorem clearCalendar_dated {s : State} (d : s.Dated) : State.Dated { s with cal := clearCalendar s.cal } := by
  unfold clearCalendar
  split
  · exact d
  next hrun =>
    have hh := d.hour
    have hm := d.minute
    exact { d with
      limit := by simp only [Calendar.wall]; omega
      unset := fun e => by rw [hrun] at e; cases e }

theorem clearCalendar_settings (c : Calendar) : (clearCalendar c).h0 = c.h0 ∧ (clearCalendar c).openMin = c.openMin ∧
    (clearCalendar c).closeMin = c.closeMin := by
  unfold clearCalendar
  split <;> exact ⟨rfl, rfl, rfl⟩

theorem emptyBoard_kept (s : State) : Kept s (emptyBoard s) where
  pending := rfl
  roles _ := rfl
  fits k := { k with
    carousels := by simpa [emptyBoard] using k.carousels
    plays := by simpa [emptyBoard] using k.plays
    panels := by simpa [emptyBoard] using k.panels
    takeover := rfl
    showings := Nat.zero_le _
    holds := Nat.zero_le _
    filling := Nat.zero_le _
    closed := Nat.zero_le _
    notices := Nat.zero_le _
    rings := fun c hc => by
      obtain ⟨d, hd, rfl⟩ := List.mem_map.1 hc
      exact k.rings d hd }
  dated d := .congr (s := { s with cal := clearCalendar s.cal }) rfl (clearCalendar_dated d)
  ranged := .congr (clearCalendar_settings s.cal) rfl rfl rfl rfl
  profiled := .congr (by simp [emptyBoard, Function.comp_def, Panel.cleared])

theorem boardClear_kept (p : Port) (s : State) : Kept s (boardClear p s).2 := by
  unfold boardClear
  dsimp only
  refine Kept.trans ?_ (DayWork.raise _ _ _ _ _).kept
  refine Kept.trans ?_ (judgeHushAll_work _).kept
  split
  · exact (emptyBoard_kept s).trans (hushFrom_kept _ _ _)
  · exact emptyBoard_kept s

/-! ### The Catalogue and the Event Router -/

theorem setCatalogue_kept {s : State} {c : Catalogue} (ha : c.auditoriums.length = s.catalogue.auditoriums.length)
    (hf : c.features.length = s.catalogue.features.length) (ht : c.texts.length = s.catalogue.texts.length) :
    Kept s { s with catalogue := c } where
  pending := rfl
  roles _ := rfl
  fits k := { k with auditoriums := ha ▸ k.auditoriums, features := hf ▸ k.features, texts := ht ▸ k.texts }
  dated := .congr rfl
  ranged := .congr ⟨rfl, rfl, rfl⟩ rfl rfl rfl rfl
  profiled := .congr rfl

theorem setAuditorium_kept (n : Nat) (a : Auditorium) (s : State) : Kept s (s.setAuditorium n a) :=
  setCatalogue_kept (modSlot_length _ _ _) rfl rfl

theorem setFeature_kept (n : Nat) (f : Option Feature) (s : State) : Kept s (s.setFeature n f) :=
  setCatalogue_kept rfl (modSlot_length _ _ _) rfl

theorem setText_kept (n : Nat) (t : TextEntry) (s : State) : Kept s (s.setText n t) :=
  setCatalogue_kept rfl rfl (modSlot_length _ _ _)

theorem clearMarks_work (id : Nat) (s : State) : DayWork s (clearMarks id s) :=
  ⟨rfl, fun h => h, fun h => h, fun h => h, fun h => h, rfl, fun h => h, rfl, by simp [clearMarks, Function.comp_def]⟩

theorem putAuditorium_kept (a name cap : Nat) (s : State) : Kept s (putAuditorium a name cap s).2 := by
  unfold putAuditorium
  split
  · exact .refl s
  · split
    · exact .refl s
    · exact setAuditorium_kept _ _ s

theorem dropAuditorium_kept (a : Nat) (s : State) : Kept s (dropAuditorium a s).2 := by
  unfold dropAuditorium
  split
  · exact .refl s
  · split
    · exact .refl s
    · split
      · exact .refl s
      · exact setAuditorium_kept _ _ s

theorem setAudState_kept (a : Nat) (st : AudState) (s : State) : Kept s (setAudState a st s).2 := by
  unfold setAudState
  split
  · exact .refl s
  · split
    · exact .refl s
    · exact setAuditorium_kept _ _ s

theorem putFeature_kept (f title rating run : Nat) (s : State) : Kept s (putFeature f title rating run s).2 := by
  unfold putFeature
  split
  · exact .refl s
  · split
    · exact .refl s
    · exact setFeature_kept _ _ s

theorem dropFeature_kept (f : Nat) (s : State) : Kept s (dropFeature f s).2 := by
  unfold dropFeature
  split
  · exact .refl s
  · split
    · exact .refl s
    · split
      · exact .refl s
      · exact setFeature_kept _ _ s

theorem putText_kept (p : Port) (id : Nat) (bytes : List Byte) (s : State) : Kept s (putText p id bytes s).2 := by
  unfold putText
  split
  · exact .refl s
  · split
    · exact .refl s
    · exact (setText_kept _ _ s).trans (clearMarks_work _ _).kept

theorem dropText_kept (p : Port) (id : Nat) (s : State) : Kept s (dropText p id s).2 := by
  unfold dropText
  split
  · exact .refl s
  · split
    · exact .refl s
    · split
      · exact .refl s
      · split
        · exact .refl s
        · exact (setText_kept _ _ s).trans (clearMarks_work _ _).kept

/-- A change of a port's queue that stays within the bounds. -/
theorem modQueue_kept (p : Port) {f : PortQueue → PortQueue} (s : State) (h : ∀ q, q.Bounded → (f q).Bounded) :
    Kept s (s.modQueue p f) where
  pending := rfl
  roles _ := rfl
  fits k := by
    cases p with
    | a => exact { k with queueA := h _ k.queueA }
    | b => exact { k with queueB := h _ k.queueB }
    | c => exact { k with queueC := h _ k.queueC }
  dated := .congr rfl
  ranged := .congr ⟨rfl, rfl, rfl⟩ rfl rfl rfl rfl
  profiled := .congr rfl

theorem readEvents_kept (p : Port) (n : Nat) (s : State) : Kept s (readEvents p n s).2 :=
  modQueue_kept p s fun _ h => ⟨(List.drop_sublist _ _).length_le.trans h.1, h.2⟩

theorem setFilter_kept (p : Port) (l : List (Byte × Half)) (s : State) : Kept s (setFilter p l s).2 := by
  unfold setFilter
  split
  · exact .refl s
  next h =>
    refine modQueue_kept p s fun q hq => ⟨hq.1, ?_⟩
    rw [filterOf, List.length_map]
    exact Nat.le_of_not_lt fun hlt => h (.inl hlt)

/-! ### Showings -/

theorem publishRefusal_none_places {s : State} {f : PublishFields} (h : s.publishRefusal f = none) : s.showings.length < 192 := by
  unfold State.publishRefusal at h
  dsimp only at h
  iterate 8 (split at h; · cases h)
  split at h
  · cases h
  next hfree => exact Nat.lt_of_not_le hfree

theorem publish_work (f : PublishFields) (s : State) : DayWork s (publish f s).2 := by
  unfold publish
  split
  · exact .refl s
  next hnone =>
    have hroom := publishRefusal_none_places hnone
    have inserted : DayWork s { s with showings := insertKey Showing.id (s.publishedShowing f) s.showings } :=
      ⟨rfl, fun _ => by rw [insertKey_length]; omega, fun h => h, fun h => h, fun h => h, rfl, fun h => h, rfl, rfl⟩
    refine DayWork.trans ?_ (judgeShowing_work _ _ _)
    have announced := fun g k n d => inserted.trans ((changeSeats_work (.seats (s.publishedShowing f).id)
      (s.publishedShowing f).id (fun y => y) _).trans (.raise g k n d _))
    split
    · exact announced _ _ _ _
    · exact (announced _ _ _ _).trans (noticeForDelay_work _ _ _)

theorem move_work (f : MoveFields) (s : State) : DayWork s (move f s).2 := by
  unfold move
  split
  · exact .refl s
  · exact .refl s
  · dsimp only
    refine DayWork.trans ?_ (judgeShowing_work _ _ _)
    refine DayWork.trans ?_ (.raise _ _ _ _ _)
    refine DayWork.trans (.modShowing _ _ s) (.ite _ (.ite _ (.refl _) (recomputeFast_work _ _)) (seatChange_work _ _ _ _ _))

theorem delayShowing_work (id : Nat) (d : Byte) (s : State) : DayWork s (delayShowing id d s).2 := by
  unfold delayShowing
  split
  · exact .refl s
  · split
    · exact .refl s
    · split
      · exact .refl s
      · split
        · exact .refl s
        · dsimp only
          refine DayWork.trans ?_ (judgeShowing_work _ _ _)
          refine DayWork.trans ?_ (noticeForDelay_work _ _ _)
          exact ((DayWork.modShowing _ _ s).trans (recomputeFast_work _ _)).trans (.raise _ _ _ _ _)

theorem setCapacity_work (id c : Nat) (s : State) : DayWork s (setCapacity id c s).2 := by
  unfold setCapacity
  split
  · exact .refl s
  · split
    · exact .refl s
    · split
      · exact .refl s
      · exact (seatChange_work _ _ _ _ s).trans (.raise _ _ _ _ _)

theorem cancel_work (id : Nat) (s : State) : DayWork s (cancel id s).2 := by
  unfold cancel
  split
  · exact .refl s
  · split
    · exact .refl s
    · split
      · exact .refl s
      · dsimp only
        refine DayWork.trans ?_ (inAnyOrder_work _ (fun t => (releaseHolds_work _ _ _ id t).trans (retireDelayed_work _ id _)) _)
        exact (DayWork.modShowing id _ s).trans (transitionTo_work id _ _)

/-! ### Seats -/

theorem sell_work (id n : Nat) (s : State) : DayWork s (sell id n s).2 := by
  unfold sell
  split
  · exact .refl s
  · split
    · exact .refl s
    · split
      · exact .refl s
      · split
        · exact .refl s
        · exact seatChange_work _ _ _ _ s

theorem refund_work (id n : Nat) (s : State) : DayWork s (refund id n s).2 := by
  unfold refund
  split
  · exact .refl s
  · split
    · exact .refl s
    · exact seatChange_work _ _ _ _ s

theorem snapshot_work (id v : Nat) (s : State) : DayWork s (snapshot id v s).2 := by
  unfold snapshot
  split
  · exact .refl s
  · split
    · exact .refl s
    · exact seatChange_work _ _ _ _ s

theorem holdRefusal_none_places {s : State} {tag id n : Nat} (h : s.holdRefusal tag id n = none) : s.holds.length < 96 := by
  unfold State.holdRefusal at h
  split at h
  · cases h
  · split at h
    · cases h
    · iterate 3 (split at h; · cases h)
      split at h
      · cases h
      next hfree => exact Nat.lt_of_not_le hfree

theorem holdSeats_work (tag id n life : Nat) (s : State) : DayWork s (holdSeats tag id n life s).2 := by
  unfold holdSeats
  split
  · exact .refl s
  next hnone =>
    have hroom := holdRefusal_none_places hnone
    dsimp only
    refine DayWork.trans ?_ (seatChange_work _ _ _ _ _)
    exact ⟨rfl, fun h => h, fun _ => by rw [insertKey_length]; omega, fun h => h, fun h => h, rfl, fun h => h, rfl, rfl⟩

theorem confirm_work (tag n : Nat) (s : State) : DayWork s (confirm tag n s).2 := by
  unfold confirm
  split
  · exact .refl s
  · split
    · exact .refl s
    · exact (dropHold_work _ _ s).trans (seatChange_work _ _ _ _ _)

theorem releaseHold_work (tag : Nat) (s : State) : DayWork s (releaseHold tag s).2 := by
  unfold releaseHold
  split
  · exact .refl s
  · split
    · exact .refl s
    · exact (dropHold_work _ _ s).trans (seatChange_work _ _ _ _ _)

theorem swapJournal_kept (s : State) : Kept s (swapJournal s).2 where
  pending := rfl
  roles _ := rfl
  fits k := { k with filling := Nat.zero_le _, closed := k.filling }
  dated := .congr rfl
  ranged := .congr ⟨rfl, rfl, rfl⟩ rfl rfl rfl rfl
  profiled := .congr rfl

/-! ### Notices -/

theorem placeFor_free {s : State} {c : NoticeClass} (h : s.placeFor c = .free) : s.notices.table.length < 32 := by
  unfold State.placeFor at h
  split at h
  · assumption
  · split at h <;> cases h

theorem postRefusal_none_place {s : State} {f : NoticeFields} (h : s.postRefusal f = none) :
    s.placeFor (noticeClass f.cls) ≠ .full := by
  intro hfull
  unfold State.postRefusal at h
  iterate 8 (split at h; · cases h)
  split at h
  · split at h
    · cases h
    · simp at h
  · simp at h

theorem displaceable_mem {s : State} {n : Notice} (h : s.displaceable = some n) : n ∈ s.notices.table := by
  unfold State.displaceable at h
  split at h
  · cases h
  · dsimp only at h
    split at h
    next d hd =>
      obtain rfl : d = n := by simpa using h
      obtain ⟨i, -, hi⟩ := List.exists_of_findSome?_eq_some hd
      exact List.mem_of_mem_filter (findKey_mem Notice.id hi).1
    next =>
      have older : ∀ (l : List Notice) (x : Option Notice), l.foldl olderPending x = some n → n ∈ l ∨ x = some n := by
        intro l
        induction l with
        | nil => exact fun x hx => .inr hx
        | cons y l ih =>
          intro x hx
          rcases ih _ hx with hmem | hstep
          · exact .inl (List.mem_cons_of_mem _ hmem)
          · cases x with
            | none => exact .inl (by simp [olderPending] at hstep; simp [hstep])
            | some z =>
              simp only [olderPending] at hstep
              split at hstep
              · exact .inl (by simp at hstep; simp [hstep])
              · exact .inr hstep
      rcases older _ _ h with hmem | hnone
      · exact List.mem_of_mem_filter (List.mem_of_mem_filter hmem)
      · cases hnone

theorem placeFor_displaced {s : State} {c : NoticeClass} {d : Notice} (h : s.placeFor c = .displaced d) :
    d ∈ s.notices.table ∧ s.displaceable = some d ∧ c = .alert := by
  unfold State.placeFor at h
  split at h
  · cases h
  · split at h
    next hd =>
      obtain rfl : _ = d := by simpa using h
      exact ⟨displaceable_mem hd, hd, rfl⟩
    all_goals cases h

theorem freeNotices_shorter {s : State} {n : Notice} (h : n ∈ s.notices.table) :
    (freeNotices [n.id] s).notices.table.length < s.notices.table.length := by
  refine List.length_filter_lt_length_iff_exists.2 ⟨n, h, ?_⟩
  simp

theorem postNotice_work (f : NoticeFields) (s : State) : DayWork s (postNotice f s).2 := by
  unfold postNotice
  split
  · exact .refl s
  next hnone =>
    dsimp only
    refine DayWork.trans ?_ (judgeTakeover_work _)
    refine DayWork.trans ?_ (.raise _ _ _ _ _)
    cases hplace : s.placeFor (s.postedNotice f).cls with
    | free => exact addNotice_work _ (placeFor_free hplace)
    | displaced d =>
      have hshort := freeNotices_shorter (placeFor_displaced hplace).1
      have freed : DayWork s (raise (.notice (s.postedNotice f).id) .noticeState d.id noticeDisplaced (freeNotices [d.id] s)) :=
        (freeNotices_work _ s).trans (.raise _ _ _ _ _)
      refine ⟨freed.frame.trans rfl, freed.showings, freed.holds, fun h => ?_, freed.takeover, freed.carousels, freed.rings,
        freed.plays, freed.profiles⟩
      have hlen : (freeNotices [d.id] s).notices.table.length < 32 := by omega
      exact (addNotice_work _ hlen).notices (Nat.le_of_lt hlen)
    | full =>
      exact absurd hplace (postRefusal_none_place hnone)

theorem withdrawNotice_work (id : Nat) (s : State) : DayWork s (withdrawNotice id s).2 := by
  unfold withdrawNotice
  split
  · exact .refl s
  · split
    · exact .refl s
    · refine DayWork.trans ?_ (judgeTakeover_work _)
      exact (DayWork.raise _ _ _ _ s).trans (freeNotices_work _ _)

/-! ### Carousels and panels -/

/-- References changed in a round and in the play records (R120). -/
theorem modRefs_work (k : Nat) (f : Nat → Option Nat) (s : State) : DayWork s (modRefs k f s) := by
  have followed : DayWork s (s.modCarousel k (Carousel.mapRef f)) := .modCarousel fun _ h => h
  exact ⟨rfl, followed.showings, followed.holds, followed.notices, followed.takeover, followed.carousels, followed.rings,
    List.length_map _, rfl⟩

/-- A change of one carousel that the state of that carousel allows. -/
theorem DayWork.modCarouselAt {k : Nat} {s : State} {f : Carousel → Carousel}
    (hf : (s.carousel k).ring.length ≤ 32 → (f (s.carousel k)).ring.length ≤ 32) : DayWork s (s.modCarousel k f) where
  frame := rfl
  showings h := h
  holds h := h
  notices h := h
  takeover h := h
  carousels := by simp
  rings h c hc := by
    obtain ⟨i, hi, rfl⟩ := List.getElem_of_mem hc
    cases k with
    | zero => exact h _ hc
    | succ k =>
      simp only [State.modCarousel, modSlot, List.length_modify] at hi
      simp only [State.modCarousel, modSlot, List.getElem_modify]
      split
      next e =>
        subst e
        have hat : s.carousel (k + 1) = s.carousels[k] := List.getD_eq_getElem _ _ hi
        rw [hat] at hf
        exact hf (h _ (List.getElem_mem hi))
      · exact h _ (List.getElem_mem hi)
  plays := rfl
  profiles := rfl

theorem entryRefusal_none_place {s : State} {f : EntryFields} (h : s.entryRefusal f = none) :
    placementOf f.placement = some .replace ∨ (s.carousel f.carousel.toNat).ring.length < 32 := by
  unfold State.entryRefusal at h
  dsimp only at h
  iterate 3 (split at h; · cases h)
  split at h
  · cases h
  next hfull =>
    by_cases hr : placementOf f.placement = some .replace
    · exact .inl hr
    · exact .inr (Nat.lt_of_not_le fun hle => hfull ⟨hr, hle⟩)

theorem putEntry_work (f : EntryFields) (s : State) : DayWork s (putEntry f s).2 := by
  unfold putEntry
  split
  · exact .refl s
  · exact .refl s
  next how hnone hhow =>
    dsimp only
    have room : how ≠ .replace → (s.carousel f.carousel.toNat).ring.length < 32 := fun hne =>
      (entryRefusal_none_place hnone).resolve_left fun e => hne (by rw [hhow] at e; exact Option.some.inj e)
    cases how with
    | append =>
      refine .modCarouselAt fun _ => ?_
      have := room (by decide)
      simp only [List.length_append, List.length_cons, List.length_nil]
      omega
    | insert =>
      refine DayWork.trans (.modCarouselAt fun _ => ?_) (modRefs_work _ _ _)
      have := room (by decide)
      rw [List.length_insertIdx]
      split <;> omega
    | replace => exact DayWork.trans (.modCarouselAt fun h => by simpa using h) (modRefs_work _ _ _)

theorem dropEntry_work (k p : Nat) (s : State) : DayWork s (dropEntry k p s).2 := by
  unfold dropEntry
  split
  · exact .refl s
  · split
    · exact .refl s
    · exact DayWork.trans (.modCarousel fun c h => (List.length_eraseIdx_le c.ring p).trans h) (modRefs_work _ _ _)

theorem endModePlay_work (k p : Nat) (s : State) : DayWork s (endModePlay k p s) := by
  unfold endModePlay
  split
  · exact .ite _ ((DayWork.setPlay p none s).trans (clearZone_work p _)) (.refl s)
  · exact .refl s

theorem endMode_work (k : Nat) (s : State) : DayWork s (endMode k s) := by
  have ended : DayWork s (s.modCarousel k fun c => { c with round := none }) := .modCarousel fun _ h => h
  exact ended.trans (DayWork.foldl _ (fun t p => endModePlay_work k p t) _ _)

theorem setCarousel_work (f : CarouselFields) (s : State) : DayWork s (setCarousel f s).2 := by
  unfold setCarousel
  split
  · exact .refl s
  · have stored : DayWork s (s.modCarousel f.carousel.toNat (Carousel.withSettings f)) := .modCarousel fun _ h => h
    exact stored.trans (.ite _ (.refl _) (endMode_work _ _))

theorem recordTake_work (k p : Nat) (found : Option (Nat × Entry)) (s : State) : DayWork s (recordTake k p found s) := by
  unfold recordTake
  have recorded : DayWork s (s.modCarousel k fun c => { c with outcome := outcomeOf found }) := .modCarousel fun _ h => h
  exact recorded.trans (.ite _ (.raise _ _ _ _ _) (.refl _))

theorem takeSpread_work (k p : Nat) (s : State) : DayWork s (takeSpread k p s) := by
  unfold takeSpread
  dsimp only
  have turned := (recordTake_work k p (s.scan (s.carousel k)) s).trans (.modCarousel (k := k)
    (f := fun c => { c with cursor := pastEntry ((s.scan (s.carousel k)).map Prod.fst) c.ring.length c.cursor })
    fun _ h => h)
  split
  · exact turned.trans (cuePanel_work _ p _)
  · exact turned

theorem startRound_work (k : Nat) (r : Play) (s : State) : DayWork s (startRound k r s) := by
  unfold startRound
  have begun : DayWork s (s.modCarousel k fun c =>
      { c with round := some { ref := r.ref, clip := r.clip, kind := r.kind, length := r.length, pending := s.members k } }) :=
    .modCarousel fun _ h => h
  exact begun.trans (DayWork.foldl _ (fun t p => cuePanel_work r p t) _ _)

theorem takeLockstep_work (k p : Nat) (s : State) : DayWork s (takeLockstep k p s) := by
  unfold takeLockstep
  dsimp only
  split
  · exact .refl s
  · split
    · exact (recordTake_work k p _ s).trans (startRound_work k _ _)
    · exact recordTake_work k p _ s

theorem takeFor_work (p : Nat) (s : State) : DayWork s (takeFor p s) := by
  unfold takeFor
  dsimp only
  split
  · split
    · exact takeSpread_work _ p s
    · exact takeLockstep_work _ p s
  · exact .refl s

theorem turnPanel_work (p : Nat) (s : State) : DayWork s (turnPanel p s) := by
  exact .modPanel fun _ => rfl

theorem takeIfIdle_work (p : Nat) (s : State) : DayWork s (takeIfIdle p s) := by
  unfold takeIfIdle
  split
  · exact takeFor_work p s
  · exact .refl s
  · exact .refl s

theorem firstCueFrame_work (now p : Nat) (s : State) : DayWork s (firstCueFrame now p s) := by
  refine .modPanel fun c => ?_
  split <;> rfl

theorem compose_work (now p : Nat) (s : State) : DayWork s (compose now p s).1 := by
  exact (turnPanel_work p s).trans ((takeIfIdle_work p _).trans (firstCueFrame_work now p _))

/-! ### Links -/

theorem modLink_kept (p : Nat) (f : LinkContext → LinkContext) (s : State) : Kept s (s.modLink p f) where
  pending := rfl
  roles _ := rfl
  fits k := { k with links := (modSlot_length _ _ _).trans k.links }
  dated := .congr rfl
  ranged := .congr ⟨rfl, rfl, rfl⟩ rfl rfl rfl rfl
  profiled := .congr rfl

theorem setCore_kept (c : CoreClock) (s : State) : Kept s { s with core := c } where
  pending := rfl
  roles _ := rfl
  fits k := { k with }
  dated := .congr rfl
  ranged := .congr ⟨rfl, rfl, rfl⟩ rfl rfl rfl rfl
  profiled := .congr rfl

theorem clearTexts_work (p : Nat) (s : State) : DayWork s (clearTexts p s) := .modPanel fun _ => rfl

theorem enterHead_kept (p : Nat) (h : HeadState) (s : State) : Kept s (enterHead p h s) := by
  unfold enterHead
  refine Kept.trans ?_ (judgeMember_work p _).kept
  have told : Kept s (raise (.link p) .panelState p h.code (s.modLink p fun l => { l with head := h })) :=
    (modLink_kept p _ s).trans (DayWork.raise _ _ _ _ _).kept
  exact told.trans <| .ite _ ((stopZone_work p _).trans (clearTexts_work p _)).kept (.refl _)

theorem miss_kept (p : Nat) (s : State) : Kept s (miss p s) := by
  unfold miss
  dsimp only
  split
  · exact (modLink_kept p _ s).trans (.ite _ (enterHead_kept p _ _) (.refl _))
  · exact (modLink_kept p _ s).trans (.ite _ ((modLink_kept p _ _).trans (enterHead_kept p _ _)) (.refl _))
  all_goals exact .refl s

theorem frameAction_kept (now p : Nat) (s : State) : Kept s (frameAction now p s) := by
  unfold frameAction
  split
  · exact (compose_work now p s).kept.trans (modLink_kept p _ _)
  · exact (compose_work now p s).kept.trans (modLink_kept p _ _)
  · exact modLink_kept p _ s
  · exact .ite _ ((modLink_kept p _ s).trans (modLink_kept p _ _)) (modLink_kept p _ s)
  · exact .refl s

theorem frameTime_kept (p : Nat) (s : State) : Kept s (frameTime p s) := by
  unfold frameTime
  split
  · exact .refl s
  · refine Kept.trans ?_ (settle_kept _)
    exact (setCore_kept _ s).trans ((modLink_kept p _ _).trans (frameAction_kept _ p _))

theorem windowExpiry_kept (p : Nat) (s : State) : Kept s (windowExpiry p s) := by
  unfold windowExpiry
  split
  · exact .refl s
  · refine Kept.trans ?_ (settle_kept _)
    exact (modLink_kept p _ s).trans ((Kept.ite _ (modLink_kept p _ _) (.refl _)).trans (miss_kept p _))

theorem badShape_kept (p : Nat) (s : State) : Kept s (badShape p s) :=
  (modLink_kept p _ s).trans ((modLink_kept p _ _).trans (miss_kept p _))

theorem clipReport_work (p token : Nat) (r : ClipReport) (s : State) : DayWork s (clipReport p token r s) := by
  have started : ∀ z, DayWork s (s.modPanel p fun c => { c with zone := z }) := fun z => .modPanel fun _ => rfl
  unfold clipReport
  split
  · exact .refl s
  · refine .ite _ (.refl s) ?_
    split
    · exact .refl s
    · exact started _
    · exact endPlay_work p _ s
    · exact endPlay_work p _ s
  · refine .ite _ (.refl s) ?_
    split
    · exact .refl s
    · exact .refl s
    · exact endPlay_work p _ s
    · exact endPlay_work p _ s

theorem takeAck_work (p : Nat) (s : State) (a : Nat × Nat) : DayWork s (takeAck p s a) := by
  exact .ite _ (.modPanel fun _ => rfl) (.refl s)

theorem takeStatus_kept (p : Nat) (r : Report) (s : State) : Kept s (takeStatus p r s) :=
  (((clipReport_work p _ _ s).trans (DayWork.foldl _ (takeAck_work p) _ _)).kept).trans (modLink_kept p _ _)

theorem takeReport_kept (p : Nat) (r : Report) (s : State) : Kept s (takeReport p r s) := by
  unfold takeReport
  exact (modLink_kept p _ s).trans ((Kept.ite _ (enterHead_kept p _ _) (.refl _)).trans (takeStatus_kept p r _))

theorem judgeClamps_work (p : Nat) (i : Identity) (s : State) : DayWork s (judgeClamps p i s) :=
  .ite _ (.refl s) (.raise _ _ _ _ s)

theorem tellGeneration_work (p : Nat) (before : LinkContext) (i : Identity) (s : State) :
    DayWork s (tellGeneration p before i s) :=
  .ite _ (.raise _ _ _ _ s) (.refl s)

theorem takeIdentity_kept (p : Nat) (i : Identity) (r : Report) (s : State) : Kept s (takeIdentity p i r s) := by
  unfold takeIdentity
  refine Kept.trans ?_ (takeStatus_kept p r _)
  refine Kept.trans ?_ ((tellGeneration_work p _ i _).trans (judgeClamps_work p i _)).kept
  exact (modLink_kept p _ s).trans ((enterHead_kept p _ _).trans (.ite _ (.refl _) (stopZone_work p _).kept))

theorem takeValid_kept (p : Nat) (r : Report) (s : State) : Kept s (takeValid p r s) := by
  unfold takeValid
  split
  · exact takeReport_kept p r s
  · exact takeReport_kept p r s
  · exact (enterHead_kept p _ s).trans (takeIdentity_kept p _ r _)
  · exact (enterHead_kept p _ s).trans (takeIdentity_kept p _ r _)
  · exact takeIdentity_kept p _ r s
  · exact takeIdentity_kept p _ r s
  all_goals exact .refl s

theorem judgeReport_kept (p : Nat) (kind : FrameKind) (r : Report) (s : State) : Kept s (judgeReport p kind r s) := by
  have missed : Kept s (miss p (setIdentity p s)) := (modLink_kept p _ s).trans (miss_kept p _)
  exact .ite _ missed (.ite _ missed (.ite _ (modLink_kept p _ s) (takeValid_kept p r s)))

theorem headReport_kept (p : Nat) (bytes : List Byte) (s : State) : Kept s (headReport p bytes s) := by
  unfold headReport
  split
  · exact .refl s
  · split
    · exact .refl s
    · exact (badShape_kept p s).trans (settle_kept _)
    · exact (badShape_kept p s).trans (settle_kept _)
    · exact (modLink_kept p _ s).trans ((judgeReport_kept p _ _ _).trans (settle_kept _))

theorem zoneDeadline_kept (p : Nat) (s : State) : Kept s (zoneDeadline p s) := by
  unfold zoneDeadline
  split
  · exact .refl s
  · exact .refl s
  · exact (setCore_kept _ s).trans ((endPlay_work p _ _).kept.trans (settle_kept _))
  · exact (setCore_kept _ s).trans ((endPlay_work p _ _).kept.trans (settle_kept _))

theorem handEnabled_kept (before after : Bool) (p : Nat) (s : State) : Kept s (handEnabled before after p s) := by
  unfold handEnabled
  split
  · exact (modLink_kept p _ s).trans (enterHead_kept p _ _)
  · exact (modLink_kept p _ s).trans (enterHead_kept p _ _)
  · exact .refl s
  · exact .refl s

theorem profileOf_inRange {f : PanelFields} (h : panelMalformed f = false) : (profileOf f).InRange := by
  simp only [panelMalformed, Bool.or_eq_false_iff, decide_eq_false_iff_not, not_lt, Bool.and_eq_false_iff] at h
  obtain ⟨⟨⟨⟨⟨⟨⟨-, -⟩, hlayout⟩, ha⟩, hb⟩, hk⟩, -⟩, hnamed⟩ := h
  refine ⟨hk, ⟨ha, hb⟩, fun e => ?_, clamp_bounds (by decide) _, clamp_bounds (by decide) _, clamp_bounds (by decide) _⟩
  have h1 : f.layout.toNat = 1 := by
    simp only [profileOf, layoutOf] at e
    split at e
    · cases e
    · split at e
      · assumption
      · split at e <;> cases e
  simp only [profileOf]
  omega

theorem setPanel_kept (f : PanelFields) (s : State) : Kept s (setPanel f s).2 := by
  unfold setPanel
  split
  · exact .refl s
  next hgood =>
    dsimp only
    refine Kept.trans ?_ ((judgeHush_work _ _).trans (judgeMember_work _ _)).kept
    refine Kept.trans ?_ (handEnabled_kept _ _ _ _)
    exact { pending := rfl, roles := fun _ => rfl, fits := fun k => { k with panels := (modSlot_length _ _ _).trans k.panels }
            dated := .congr rfl, ranged := .congr ⟨rfl, rfl, rfl⟩ rfl rfl rfl rfl
            profiled := fun k c hc => by
              rcases mem_modSlot hc with hc | ⟨d, hd, rfl⟩
              · exact k c hc
              · exact profileOf_inRange (Bool.eq_false_of_not_eq_true hgood) }

theorem queryPanel_kept (p : Nat) (s : State) : Kept s (queryPanel p s).2 := by
  unfold queryPanel
  split
  · exact .refl s
  · exact modLink_kept p _ s

end Sys2Proof.Machine
end

section
/-! PROOFS of the invariants that no order of events can touch: every command but the resets keeps the sizes, the date, the settings
and the profiles, and both resets set them anew (R1, R4, R85, R138, R173, R180). -/

namespace Sys2Proof.Machine

/-! ### Every command but the resets -/

theorem execMalformedMessage_kept (p : Port) (bytes : List Byte) (s : State) :
    ∃ t, execMalformedMessage p bytes s = .next t ∧ Kept s t :=
  ⟨_, rfl, .ite _ (.refl s) (transaction_kept p _ (fun u => .refl u) s)⟩

/-- Records pushed by the release of a reset keep every queue within its bounds. -/
theorem placeReset_kept (r : EventRecord) (l : List EventRecord) (t : State) :
    Kept t { t with queues := l.foldl (offerAll t.ports) (pushAll t.queues r), deferred := [] } :=
  { pending := rfl, roles := fun _ => rfl
    fits := fun k => by
      obtain ⟨ha, hb, hc⟩ := foldl_offerAll_bounded t.ports l (q := pushAll t.queues r) (PortQueue.push_bounded r k.queueA)
        (PortQueue.push_bounded r k.queueB) (PortQueue.push_bounded r k.queueC)
      exact { k with queueA := ha, queueB := hb, queueC := hc }
    dated := .congr rfl, ranged := .congr ⟨rfl, rfl, rfl⟩ rfl rfl rfl rfl, profiled := .congr rfl }

/-- The state at the release of a reset, before the hushed marks are judged. -/
def State.atRelease (s : State) : State :=
  { s with rstn := .released, cal := s.cal.atRelease, core := { s.core with nextTick := some (s.core.now + 100) } }

theorem Calendar.atRelease_date (c : Calendar) :
    c.atRelease = { c with d0 := c.atRelease.d0, hush := c.atRelease.hush } := by
  unfold Calendar.atRelease
  split <;> rfl

theorem atRelease_kept (s : State) : Kept s s.atRelease :=
  { pending := rfl, roles := fun _ => rfl, fits := fun k => { k with }
    dated := fun d => by
      unfold State.atRelease
      rw [Calendar.atRelease_date]
      exact { d with }
    ranged := .congr (by unfold State.atRelease; rw [Calendar.atRelease_date]; exact ⟨rfl, rfl, rfl⟩) rfl rfl rfl rfl
    profiled := .congr rfl }

/-- The release of a reset: the records it places follow the judging of the hushed marks. -/
theorem releaseReset_eq (kind : ResetKind) (s : State) : ∃ r, releaseReset kind s =
    { judgeHushAll s.atRelease with
      queues := s.deferred.foldl (offerAll (judgeHushAll s.atRelease).ports) (pushAll (judgeHushAll s.atRelease).queues r)
      deferred := [] } :=
  ⟨_, rfl⟩

theorem releaseReset_kept (kind : ResetKind) (s : State) : Kept s (releaseReset kind s) := by
  obtain ⟨r, e⟩ := releaseReset_eq kind s
  rw [e]
  exact ((atRelease_kept s).trans (judgeHushAll_work _).kept).trans (placeReset_kept r s.deferred _)

theorem flashTick_kept (s : State) : ∃ t, execFlashTick s = .next t ∧ Kept s t := by
  refine ⟨_, rfl, ?_⟩
  split
  · exact .refl s
  next n _ =>
    refine (setCore_kept { now := max s.core.now n, nextTick := some (n + 100) } s).trans (DayWork.kept ?_)
    exact .setNotices (by simp) fun h => h

/-- Every command but the resets completes, and keeps what `Kept` lists. -/
theorem exec_kept {c : Instr} (h : ∀ straps, c ≠ .powerOnReset straps ∧ c ≠ .pinReset straps) (s : State) :
    ∃ t, exec c s = .next t ∧ Kept s t := by
  cases c with
  | powerOnReset straps => exact absurd rfl (h straps).1
  | pinReset straps => exact absurd rfl (h straps).2
  | resetRelease =>
    refine ⟨_, rfl, ?_⟩
    split
    · exact .refl s
    · exact releaseReset_kept _ s
  | secondEvent => exact ⟨_, rfl, secondEvent_kept s⟩
  | dwellExpiry p => exact ⟨_, rfl, .ite _ (secondEvent_kept s) (.refl s)⟩
  | holdExpiry tag => exact ⟨_, rfl, .ite _ (secondEvent_kept s) (.refl s)⟩
  | salesStale => exact ⟨_, rfl, .ite _ (secondEvent_kept s) (.refl s)⟩
  | minuteEvent => exact ⟨_, rfl, .ite _ (secondEvent_kept s) (.refl s)⟩
  | midnightEvent => exact ⟨_, rfl, .ite _ (secondEvent_kept s) (.refl s)⟩
  | flashTick => exact flashTick_kept s
  | frameTime p => exact ⟨_, rfl, frameTime_kept _ s⟩
  | lostIdentify p => exact ⟨_, rfl, .ite _ (frameTime_kept _ s) (.refl s)⟩
  | replyWindowExpiry p => exact ⟨_, rfl, windowExpiry_kept _ s⟩
  | headReport p bytes => exact ⟨_, rfl, headReport_kept _ bytes s⟩
  | reportLengthFailure p length =>
    refine ⟨_, rfl, ?_⟩
    split
    · exact .refl s
    · exact .ite _ ((badShape_kept _ s).trans (settle_kept _)) (.refl s)
  | zoneDeadline p => exact ⟨_, rfl, zoneDeadline_kept _ s⟩
  | emptyTransaction port =>
    exact ⟨_, rfl, .ite _ (modPort_kept port s (fun x => clockOut_role 0 x) fun x _ => deselect_fresh _) (deselect_kept port s)⟩
  | malformedMessage port bytes => exact execMalformedMessage_kept port bytes s
  | nothing t => exact ⟨_, rfl, transaction_kept _ _ (fun u => .refl u) s⟩
  | readEvents t count => exact ⟨_, rfl, request_kept t _ _ _ (readEvents_kept _ _) s⟩
  | setFilter t pairs => exact ⟨_, rfl, request_kept t _ _ _ (setFilter_kept _ _) s⟩
  | queryBoard t => exact ⟨_, rfl, request_kept t _ _ _ (fun u => .refl u) s⟩
  | queryShowing t id =>
    refine ⟨_, rfl, request_kept t _ _ _ (fun u => ?_) s⟩
    unfold queryShowing
    split
    · exact .refl u
    · split <;> exact .refl u
  | queryHold t tag =>
    refine ⟨_, rfl, request_kept t _ _ _ (fun u => ?_) s⟩
    unfold queryHold
    split
    · exact .refl u
    · split <;> exact .refl u
  | queryNotice t id =>
    refine ⟨_, rfl, request_kept t _ _ _ (fun u => ?_) s⟩
    unfold queryNotice
    split
    · exact .refl u
    · split <;> exact .refl u
  | queryCarousel t carousel start =>
    refine ⟨_, rfl, request_kept t _ _ _ (fun u => ?_) s⟩
    unfold queryCarousel
    split <;> exact .refl u
  | queryPanel t panel => exact ⟨_, rfl, request_kept t _ _ _ (queryPanel_kept _) s⟩
  | setTime t f => exact ⟨_, rfl, request_kept t _ _ _ (setTime_kept f) s⟩
  | wake t => exact ⟨_, rfl, request_kept t _ _ _ (fun u => setHushWake_kept _ _ u) s⟩
  | setBoard t f => exact ⟨_, rfl, request_kept t _ _ _ (setBoard_kept f) s⟩
  | boardClear t => exact ⟨_, rfl, request_kept t _ _ _ (boardClear_kept _) s⟩
  | putAuditorium t a name cap => exact ⟨_, rfl, request_kept t _ _ _ (putAuditorium_kept _ _ _) s⟩
  | dropAuditorium t a => exact ⟨_, rfl, request_kept t _ _ _ (dropAuditorium_kept _) s⟩
  | suspendAuditorium t a => exact ⟨_, rfl, request_kept t _ _ _ (setAudState_kept _ _) s⟩
  | resumeAuditorium t a => exact ⟨_, rfl, request_kept t _ _ _ (setAudState_kept _ _) s⟩
  | putFeature t f title rating run => exact ⟨_, rfl, request_kept t _ _ _ (putFeature_kept _ _ _ _) s⟩
  | dropFeature t f => exact ⟨_, rfl, request_kept t _ _ _ (dropFeature_kept _) s⟩
  | putText t id bytes => exact ⟨_, rfl, request_kept t _ _ _ (putText_kept _ _ _) s⟩
  | dropText t id => exact ⟨_, rfl, request_kept t _ _ _ (dropText_kept _ _) s⟩
  | publish t f => exact ⟨_, rfl, request_kept t _ _ _ (fun u => (publish_work f u).kept) s⟩
  | move t f => exact ⟨_, rfl, request_kept t _ _ _ (fun u => (move_work f u).kept) s⟩
  | delay t id minutes => exact ⟨_, rfl, request_kept t _ _ _ (fun u => (delayShowing_work _ _ u).kept) s⟩
  | setCapacity t id cap => exact ⟨_, rfl, request_kept t _ _ _ (fun u => (setCapacity_work _ _ u).kept) s⟩
  | cancel t id => exact ⟨_, rfl, request_kept t _ _ _ (fun u => (cancel_work _ u).kept) s⟩
  | sell t id n => exact ⟨_, rfl, request_kept t _ _ _ (fun u => (sell_work _ _ u).kept) s⟩
  | refund t id n => exact ⟨_, rfl, request_kept t _ _ _ (fun u => (refund_work _ _ u).kept) s⟩
  | snapshot t id v => exact ⟨_, rfl, request_kept t _ _ _ (fun u => (snapshot_work _ _ u).kept) s⟩
  | hold t tag id n life => exact ⟨_, rfl, request_kept t _ _ _ (fun u => (holdSeats_work _ _ _ _ u).kept) s⟩
  | confirm t tag n => exact ⟨_, rfl, request_kept t _ _ _ (fun u => (confirm_work _ _ u).kept) s⟩
  | release t tag => exact ⟨_, rfl, request_kept t _ _ _ (fun u => (releaseHold_work _ u).kept) s⟩
  | readJournal t start count =>
    exact ⟨_, rfl, request_kept t _ _ _ (fun u => by rw [readJournal_state]; exact .refl u) s⟩
  | swapJournal t => exact ⟨_, rfl, request_kept t _ _ _ swapJournal_kept s⟩
  | postNotice t f => exact ⟨_, rfl, request_kept t _ _ _ (fun u => (postNotice_work f u).kept) s⟩
  | withdrawNotice t id => exact ⟨_, rfl, request_kept t _ _ _ (fun u => (withdrawNotice_work _ u).kept) s⟩
  | putEntry t f => exact ⟨_, rfl, request_kept t _ _ _ (fun u => (putEntry_work f u).kept) s⟩
  | dropEntry t carousel position => exact ⟨_, rfl, request_kept t _ _ _ (fun u => (dropEntry_work _ _ u).kept) s⟩
  | setCarousel t f => exact ⟨_, rfl, request_kept t _ _ _ (fun u => (setCarousel_work f u).kept) s⟩
  | setPanel t f => exact ⟨_, rfl, request_kept t _ _ _ (setPanel_kept f) s⟩
  | chipSelectAssertion port =>
    exact ⟨_, rfl, modPort_kept port s (assertSelect_role _) fun x h => assertSelect_fresh _ h⟩

/-- Settles O2: every command but the resets keeps the queue and the roles (`exec_kept`), and a reset keeps the queue. -/
theorem everyCommandCompletesAndLeavesTheQueue : Obligations.EveryCommandCompletesAndLeavesTheQueue := by
  unfold Obligations.EveryCommandCompletesAndLeavesTheQueue
  intro c s
  by_cases h : ∀ straps, c ≠ .powerOnReset straps ∧ c ≠ .pinReset straps
  · obtain ⟨t, ht, kept⟩ := exec_kept h s
    exact ⟨t, ht, kept.pending, fun _ => kept.roles⟩
  · cases c with
    | powerOnReset straps => exact ⟨_, rfl, rfl, fun hc => absurd rfl (hc straps).1⟩
    | pinReset straps => exact ⟨_, rfl, rfl, fun hc => absurd rfl (hc straps).2⟩
    | _ => exact absurd (fun _ => ⟨nofun, nofun⟩) h

/-! ### The resets -/

theorem resetTo_fresh (role : Role) (ps : PortState) : (ps.resetTo role).Fresh := by
  obtain ⟨r, slot, chip⟩ := ps
  cases chip <;> exact ⟨rfl, rfl⟩

/-- Both resets leave the tables at their sizes and empty, whatever stood before. -/
theorem resetBlocks_shape (kind : ResetKind) (straps : Straps) (s : State) : (resetBlocks kind straps s).Shape where
  settled := ⟨rfl, rfl⟩
  auditoriums := List.length_replicate
  features := List.length_replicate
  texts := List.length_replicate
  carousels := rfl
  plays := rfl
  panels := rfl
  links := rfl
  takeover := rfl
  showings := Nat.zero_le _
  holds := Nat.zero_le _
  filling := Nat.zero_le _
  closed := Nat.zero_le _
  notices := Nat.zero_le _
  rings := fun _ hc => by
    obtain rfl := List.eq_of_mem_replicate hc
    exact Nat.zero_le _
  queueA := ⟨Nat.zero_le _, Nat.zero_le _⟩
  queueB := ⟨Nat.zero_le _, Nat.zero_le _⟩
  queueC := ⟨Nat.zero_le _, Nat.zero_le _⟩
  freshA := resetTo_fresh _ _
  freshB := resetTo_fresh _ _
  freshC := resetTo_fresh _ _

theorem atReset_inRange : Profile.atReset.InRange :=
  ⟨by decide, by decide, (fun h => by cases h), by decide, by decide, by decide⟩

theorem resetBlocks_profiled (kind : ResetKind) (straps : Straps) (s : State) : (resetBlocks kind straps s).Profiled :=
  fun _ hc => by
    obtain rfl := List.eq_of_mem_replicate hc
    exact atReset_inRange

/-! ### The end of every arrival -/

theorem transaction_settled (p : Port) (n : Nat) (handle : State → Option Reply × State) {s : State} (h : s.Settled) :
    (transaction p n handle s).Settled := by
  unfold transaction
  split
  · dsimp only
    split <;> exact ⟨rfl, rfl⟩
  · exact h

theorem ite_settled {c : Prop} [Decidable c] {s t : State} (h : s.Settled) (k : t.Settled) : (if c then s else t).Settled := by
  split
  · exact h
  · exact k

theorem secondEvent_settled {s : State} (h : s.Settled) : (secondEvent s).Settled := by
  unfold secondEvent
  split
  next kind _ =>
    cases kind with
    | powerOn => exact h
    | pin =>
      unfold secondInReset secondInPinReset
      dsimp only
      split <;> exact h
  · exact settle_isSettled _

theorem frameTime_settled (p : Nat) {s : State} (h : s.Settled) : (frameTime p s).Settled := by
  unfold frameTime
  split
  · exact h
  · exact settle_isSettled _

/-- The zones' part of a state is no part of what an arrival has raised. -/
theorem OnlyZones.settled {s t : State} (h : OnlyZones s t) (hs : s.Settled) : t.Settled := by
  obtain ⟨_, _, _, rfl⟩ := h
  exact hs

theorem releaseReset_settled (kind : ResetKind) {s : State} (h : s.Settled) : (releaseReset kind s).Settled := by
  obtain ⟨r, e⟩ := releaseReset_eq kind s
  have judged : (judgeHushAll s.atRelease).Settled := (judgeHushAll_only s.atRelease).settled h
  rw [e]
  generalize judgeHushAll s.atRelease = t at judged ⊢
  exact judged

/-- Every command ends the arrival that it begins. -/
theorem exec_settled {c : Instr} {s t : State} (h : s.Settled) (ht : exec c s = .next t) : t.Settled := by
  cases c <;> obtain rfl := Host.Outcome.next.inj ht
  case powerOnReset => exact ⟨rfl, rfl⟩
  case pinReset => exact ⟨rfl, rfl⟩
  case resetRelease =>
    split
    · exact h
    · exact releaseReset_settled _ h
  case secondEvent => exact secondEvent_settled h
  case dwellExpiry => exact ite_settled (secondEvent_settled h) h
  case holdExpiry => exact ite_settled (secondEvent_settled h) h
  case salesStale => exact ite_settled (secondEvent_settled h) h
  case minuteEvent => exact ite_settled (secondEvent_settled h) h
  case midnightEvent => exact ite_settled (secondEvent_settled h) h
  case flashTick => split <;> exact h
  case frameTime => exact frameTime_settled _ h
  case lostIdentify => exact ite_settled (frameTime_settled _ h) h
  case replyWindowExpiry =>
    unfold windowExpiry
    split
    · exact h
    · exact settle_isSettled _
  case headReport =>
    unfold headReport
    split
    · exact h
    · split
      · exact h
      all_goals exact settle_isSettled _
  case reportLengthFailure =>
    split
    · exact h
    · exact ite_settled (settle_isSettled _) h
  case zoneDeadline =>
    unfold zoneDeadline
    split
    · exact h
    · exact h
    all_goals exact settle_isSettled _
  case emptyTransaction => exact ite_settled h h
  case malformedMessage => exact ite_settled h (transaction_settled _ _ _ h)
  case chipSelectAssertion => exact h
  all_goals exact transaction_settled _ _ _ h

/-! ### The invariants of a step -/

/-- What holds of every command's outcome, the waiting commands left out of account, holds of every step's: an idle step only moves the
core clock. -/
theorem step_keeps {I : State → Prop} (queue : ∀ s l, I s → I { s with pending := l })
    (clock : ∀ s k, I s → I { s with core := k }) (command : ∀ c s t, I s → exec c s = .next t → I t) {s t : State}
    (h : I s) (ht : step s = .next t) : I t := by
  unfold step at ht
  split at ht
  · obtain rfl := Host.Outcome.next.inj ht
    exact clock s _ h
  next c rest _ => exact command c _ t (queue s rest h) ht

/-- An invariant that `Kept` carries and both resets bring about is kept by every command. -/
theorem exec_keeps {I : State → Prop} (kept : ∀ s t, Kept s t → I s → I t)
    (resets : ∀ straps s t, I s → exec (.powerOnReset straps) s = .next t ∨ exec (.pinReset straps) s = .next t → I t)
    (c : Instr) (s t : State) (h : I s) (ht : exec c s = .next t) : I t := by
  by_cases hc : ∀ straps, c ≠ .powerOnReset straps ∧ c ≠ .pinReset straps
  · obtain ⟨t', ht', k⟩ := exec_kept hc s
    obtain rfl := Host.Outcome.next.inj (ht'.symm.trans ht)
    exact kept s _ k h
  · cases c with
    | powerOnReset straps => exact resets straps s t h (.inl ht)
    | pinReset straps => exact resets straps s t h (.inr ht)
    | _ => exact absurd (fun _ => ⟨nofun, nofun⟩) hc

/-- Settles O56: the sizes are kept by `exec_kept` and set by the resets, and every command ends its arrival (`exec_settled`). -/
theorem everyStepKeepsTheShape : Obligations.EveryStepKeepsTheShape := by
  unfold Obligations.EveryStepKeepsTheShape
  intro s t h ht
  refine step_keeps (I := State.Shape) (fun _ _ k => { k with }) (fun _ _ k => { k with }) (fun c u v k hv => ?_) h ht
  refine State.Fits.shape ?_ (exec_settled k.settled hv)
  refine exec_keeps (I := State.Fits) (fun _ _ kept => kept.fits) (fun straps a b _ hb => ?_) c u v k.fits hv
  rcases hb with hb | hb
  · obtain rfl := Host.Outcome.next.inj hb
    exact { (resetBlocks_shape .powerOn straps a).fits with }
  · obtain rfl := Host.Outcome.next.inj hb
    exact { (resetBlocks_shape .pin straps a).fits with }

theorem State.reset_dated : State.reset.Dated :=
  ⟨by decide, by decide, by decide, by decide, by decide, by decide, by decide, fun _ => rfl⟩

theorem State.reset_ranged : State.reset.Ranged :=
  ⟨by decide, by decide, by decide, by decide, by decide, by decide, by decide, by decide, by decide, by decide, by decide,
    by decide⟩

/-- Settles O57: `Kept` carries date, settings and profiles; a power-on reset sets all three, a pin reset keeps the date. -/
theorem everyStepKeepsTheDateAndSettings : Obligations.EveryStepKeepsTheDateAndSettings := by
  unfold Obligations.EveryStepKeepsTheDateAndSettings
  refine ⟨fun s t h ht => ?dated, fun s t h ht => ?ranged, fun s t h ht => ?profiled⟩
  case dated =>
    refine step_keeps (I := State.Dated) (fun _ _ => .congr rfl) (fun _ _ => .congr rfl)
      (exec_keeps (fun _ _ k => k.dated) fun straps a b d hb => ?_) h ht
    rcases hb with hb | hb
    · obtain rfl := Host.Outcome.next.inj hb
      exact State.Dated.congr (s := State.reset) rfl State.reset_dated
    · obtain rfl := Host.Outcome.next.inj hb
      exact { d with }
  case ranged =>
    refine step_keeps (I := State.Ranged) (fun _ _ => .congr ⟨rfl, rfl, rfl⟩ rfl rfl rfl rfl)
      (fun _ _ => .congr ⟨rfl, rfl, rfl⟩ rfl rfl rfl rfl) (exec_keeps (fun _ _ k => k.ranged) fun straps a b _ hb => ?_) h ht
    rcases hb with hb | hb <;> obtain rfl := Host.Outcome.next.inj hb <;>
      exact State.Ranged.congr (s := State.reset) ⟨rfl, rfl, rfl⟩ rfl rfl rfl rfl State.reset_ranged
  case profiled =>
    refine step_keeps (I := State.Profiled) (fun _ _ k => k) (fun _ _ k => k)
      (exec_keeps (fun _ _ k => k.profiled) fun straps a b _ hb => ?_) h ht
    rcases hb with hb | hb <;> obtain rfl := Host.Outcome.next.inj hb
    · exact resetBlocks_profiled .powerOn straps a
    · exact resetBlocks_profiled .pin straps a

end Sys2Proof.Machine
end

section
/-! PROOFS of the step itself and of the base case of every invariant: the state right after a power-on reset. -/

namespace Sys2Proof.Machine

/-- Settles O1: the definition of a step, on a queue with a command and on an empty one. -/
theorem stepRunsFrontCommand : Obligations.StepRunsFrontCommand := by
  unfold Obligations.StepRunsFrontCommand
  refine ⟨fun c rest s h => ?_, fun s h => ?_⟩
  · unfold step
    rw [h]
  · cases s
    cases h
    rfl

theorem slot_replicate {α : Type} (d : α) (n i : Nat) : slot d (List.replicate n d) i = d := by
  cases i with
  | zero => rfl
  | succ i => simp [slot]

theorem State.reset_shape : State.reset.Shape where
  settled := ⟨rfl, rfl⟩
  auditoriums := List.length_replicate
  features := List.length_replicate
  texts := List.length_replicate
  carousels := rfl
  plays := rfl
  panels := rfl
  links := rfl
  takeover := rfl
  showings := Nat.zero_le _
  holds := Nat.zero_le _
  filling := Nat.zero_le _
  closed := Nat.zero_le _
  notices := Nat.zero_le _
  rings := fun _ hc => by
    obtain rfl := List.eq_of_mem_replicate hc
    exact Nat.zero_le _
  queueA := by decide
  queueB := by decide
  queueC := by decide
  freshA := ⟨rfl, rfl⟩
  freshB := ⟨rfl, rfl⟩
  freshC := ⟨rfl, rfl⟩

/-- Without holds and showings the seats agree. -/
theorem State.Seated.of_empty {s : State} (hs : s.showings = []) (hh : s.holds = []) : s.Seated :=
  ⟨by simp [hs], by simp [hh], by simp [hs], by simp [hh]⟩

/-- Without notices nothing takes a panel over. -/
theorem State.Noticed.of_empty {s : State} (h : s.notices = NoticeUnit.empty) : s.Noticed where
  table := by simp [h, NoticeUnit.empty]
  once := by simp [h, NoticeUnit.empty]
  active := by simp [h, NoticeUnit.empty]
  takeover := fun p _ => by
    unfold State.takeover State.takeoverDue
    rw [h]
    exact slot_replicate none 12 p

/-- A panel without a play fits, where its zone is IDLE and no text is marked. -/
theorem State.ZoneFits.of_idle {s : State} {p : Nat} (hzone : (s.panel p).zone = .idle) (hplay : s.play? p = none)
    (htexts : (s.panel p).current = []) : s.ZoneFits p :=
  ⟨by rw [hzone, hplay]; rfl, by simp [hzone, Zone.busy], by simp [hzone, Zone.busy], by simp [hzone, Zone.busy],
    fun _ => htexts⟩

/-- What both resets leave of panels and plays meets the zones' invariants. -/
theorem zones_of_reset {s : State} (hplays : s.plays = List.replicate 12 none)
    (hpanels : s.panels = List.replicate 12 Panel.atReset) : s.Zoned ∧ s.PlaysFit := by
  have panel : ∀ p, s.panel p = Panel.atReset := fun p => by unfold State.panel; rw [hpanels]; exact slot_replicate _ 12 p
  have play : ∀ p, s.play? p = none := fun p => by unfold State.play?; rw [hplays]; exact slot_replicate _ 12 p
  exact ⟨fun p _ => .of_idle (by rw [panel]; rfl) (play p) (by rw [panel]; rfl),
    fun p r hr => by rw [play p] at hr; cases hr⟩

theorem State.reset_profiled : State.reset.Profiled := fun _ hc => by
  obtain rfl := List.eq_of_mem_replicate hc
  exact atReset_inRange

/-- Settles O55: each invariant of the state after reset, whose tables are empty or at their defaults. -/
theorem resetMeetsTheInvariants : Obligations.ResetMeetsTheInvariants :=
  ⟨State.reset_shape, State.reset_dated, State.reset_ranged, .of_empty rfl rfl, .of_empty rfl, (zones_of_reset rfl rfl).1,
    State.reset_profiled, (zones_of_reset rfl rfl).2⟩

end Sys2Proof.Machine
end

section
/-! PROOFS of what the commands leave alone. Quiet is what the frame of a transaction and the end of an arrival do to the board: nothing.
Aside is what the work of the zones, the links and the Catalogue does to showings, holds and notices: nothing. -/

namespace Sys2Proof.Machine

/-- The showings, the holds and the notices stand as they were. -/
structure Aside (s t : State) : Prop where
  showings : t.showings = s.showings
  holds : t.holds = s.holds
  notices : t.notices = s.notices

namespace Aside

theorem refl (s : State) : Aside s s := ⟨rfl, rfl, rfl⟩

theorem trans {s t u : State} (h : Aside s t) (k : Aside t u) : Aside s u :=
  ⟨k.showings.trans h.showings, k.holds.trans h.holds, k.notices.trans h.notices⟩

theorem foldl {α : Type} {f : State → α → State} (h : ∀ u x, Aside u (f u x)) (l : List α) (s : State) : Aside s (l.foldl f s) :=
  foldl_rel Aside refl trans f h l s

theorem ite {c : Prop} [Decidable c] {s t u : State} (h : Aside s t) (k : Aside s u) : Aside s (if c then t else u) := by
  split
  · exact h
  · exact k

theorem raise (g : Source) (k : EventKind) (n d : Nat) (s : State) : Aside s (raise g k n d s) := ⟨rfl, rfl, rfl⟩
theorem modCarousel (k : Nat) (f : Carousel → Carousel) (s : State) : Aside s (s.modCarousel k f) := ⟨rfl, rfl, rfl⟩
theorem setPlay (p : Nat) (r : Option Play) (s : State) : Aside s (s.setPlay p r) := ⟨rfl, rfl, rfl⟩
theorem modPanel (p : Nat) (f : Panel → Panel) (s : State) : Aside s (s.modPanel p f) := ⟨rfl, rfl, rfl⟩
theorem modLink (p : Nat) (f : LinkContext → LinkContext) (s : State) : Aside s (s.modLink p f) := ⟨rfl, rfl, rfl⟩

theorem settled {s t : State} (h : Aside s t) : Aside s (settle t) := h.trans ⟨rfl, rfl, rfl⟩

theorem of_zones {s t : State} (h : OnlyZones s t) : Aside s t := by
  obtain ⟨_, _, _, rfl⟩ := h
  exact ⟨rfl, rfl, rfl⟩

end Aside

/-- What the invariants of seats, notices and zones read stands as it was. -/
structure Quiet (s t : State) : Prop where
  aside : Aside s t
  plays : t.plays = s.plays
  panels : t.panels = s.panels
  links : t.links = s.links

namespace Quiet

theorem refl (s : State) : Quiet s s := ⟨.refl s, rfl, rfl, rfl⟩

theorem trans {s t u : State} (h : Quiet s t) (k : Quiet t u) : Quiet s u :=
  ⟨h.aside.trans k.aside, k.plays.trans h.plays, k.panels.trans h.panels, k.links.trans h.links⟩

theorem ite {c : Prop} [Decidable c] {s t u : State} (h : Quiet s t) (k : Quiet s u) : Quiet s (if c then t else u) := by
  split
  · exact h
  · exact k

theorem raise (g : Source) (k : EventKind) (n d : Nat) (s : State) : Quiet s (raise g k n d s) := ⟨.raise g k n d s, rfl, rfl, rfl⟩

end Quiet

theorem settle_quiet (s : State) : Quiet s (settle s) := ⟨⟨rfl, rfl, rfl⟩, rfl, rfl, rfl⟩

theorem modPort_quiet (p : Port) (f : PortState → PortState) (s : State) : Quiet s (s.modPort p f) := ⟨⟨rfl, rfl, rfl⟩, rfl, rfl, rfl⟩

theorem signOfLife_quiet (p : Port) (s : State) : Quiet s (signOfLife p s) := by
  unfold signOfLife
  split
  · split
    · exact ⟨⟨rfl, rfl, rfl⟩, rfl, rfl, rfl⟩
    · refine Quiet.trans ?_ (settle_quiet _)
      exact ⟨⟨rfl, rfl, rfl⟩, rfl, rfl, rfl⟩
  · exact .refl s

/-! ### What a transaction hands on -/

/-- An invariant that reads nothing of ports, queues and watch is kept by a transaction whose handler keeps it. -/
theorem transaction_carries {I : State → Prop} (quiet : ∀ u v, Quiet u v → I u → I v) {p : Port} {n : Nat}
    {handle : State → Option Reply × State} (h : ∀ u, I u → I (handle u).2) {s : State} (hs : I s) :
    I (transaction p n handle s) := by
  unfold transaction
  split
  · have heard : I (signOfLife p (s.modPort p (clockOut n))) :=
      quiet _ _ (signOfLife_quiet p _) (quiet _ _ (modPort_quiet p _ s) hs)
    have settled := quiet _ _ (settle_quiet _) (h _ heard)
    dsimp only
    split
    · exact quiet _ _ (modPort_quiet p _ _) settled
    · exact quiet _ _ (modPort_quiet p _ _) settled
  · exact quiet _ _ (modPort_quiet p _ s) hs

/-- The same of a request, whose body need keep the invariant alone. -/
theorem request_carries {I : State → Prop} (quiet : ∀ u v, Quiet u v → I u → I v) {t : Txn} {n kind : Nat} {roles : List Role}
    {body : State → Answer × State} (h : ∀ u, I u → I (body u).2) {s : State} (hs : I s) :
    I (request t n kind roles body s) := by
  refine transaction_carries quiet (fun u hu => ?_) hs
  split
  · exact h u hu
  · exact hu

theorem request_aside (t : Txn) (n kind : Nat) (roles : List Role) {body : State → Answer × State} (h : ∀ u, Aside u (body u).2)
    (s : State) : Aside s (request t n kind roles body s) :=
  request_carries (I := Aside s) (fun _ _ q k => k.trans q.aside) (fun u k => k.trans (h u)) (.refl s)

/-! ### The zones' work -/

theorem handOutcome_aside (p : Nat) (o : PlayOutcome) (s : State) : Aside s (handOutcome p o s) := by
  unfold handOutcome
  split
  · exact .refl s
  · dsimp only
    cases o <;> exact .ite ⟨rfl, rfl, rfl⟩ ⟨rfl, rfl, rfl⟩

theorem endPlay_aside (p : Nat) (o : PlayOutcome) (s : State) : Aside s (endPlay p o s) := by
  unfold endPlay
  split
  · exact .refl s
  · exact (Aside.modPanel p _ s).trans (handOutcome_aside p o _)
  · exact (Aside.modPanel p _ s).trans (handOutcome_aside p o _)

theorem setHushWake_aside (hush wake : Bool) (s : State) : Aside s (setHushWake hush wake s) := by
  unfold setHushWake
  refine .ite ⟨rfl, rfl, rfl⟩ (Aside.trans ?_ (.of_zones (judgeHushAll_only _)))
  exact ⟨rfl, rfl, rfl⟩

theorem cuePanel_aside (r : Play) (p : Nat) (s : State) : Aside s (cuePanel r p s) := ⟨rfl, rfl, rfl⟩

theorem recordTake_aside (k p : Nat) (found : Option (Nat × Entry)) (s : State) : Aside s (recordTake k p found s) := by
  unfold recordTake
  exact .ite ⟨rfl, rfl, rfl⟩ ⟨rfl, rfl, rfl⟩

theorem takeSpread_aside (k p : Nat) (s : State) : Aside s (takeSpread k p s) := by
  unfold takeSpread
  dsimp only
  have moved := (recordTake_aside k p (s.scan (s.carousel k)) s).trans (.modCarousel k
    (fun c => { c with cursor := pastEntry ((s.scan (s.carousel k)).map Prod.fst) c.ring.length c.cursor }) _)
  split
  · exact moved.trans (cuePanel_aside _ p _)
  · exact moved

theorem takeLockstep_aside (k p : Nat) (s : State) : Aside s (takeLockstep k p s) := by
  unfold takeLockstep
  dsimp only
  split
  · exact .refl s
  · split
    · exact (recordTake_aside k p _ s).trans ((Aside.modCarousel k _ _).trans (.foldl (fun u q => cuePanel_aside _ q u) _ _))
    · exact recordTake_aside k p _ s

theorem takeFor_aside (p : Nat) (s : State) : Aside s (takeFor p s) := by
  unfold takeFor
  dsimp only
  split
  · split
    · exact takeSpread_aside _ p s
    · exact takeLockstep_aside _ p s
  · exact .refl s

theorem compose_aside (now p : Nat) (s : State) : Aside s (compose now p s).1 := by
  have taken : Aside (turnPanel p s) (takeIfIdle p (turnPanel p s)) := by
    unfold takeIfIdle
    split
    · exact takeFor_aside p _
    · exact .refl _
    · exact .refl _
  exact (Aside.modPanel p _ s).trans (taken.trans (.modPanel p _ _))

/-! ### The links' work -/

theorem enterHead_aside (p : Nat) (h : HeadState) (s : State) : Aside s (enterHead p h s) := by
  unfold enterHead
  have entered : Aside s (raise (.link p) .panelState p h.code (s.modLink p fun l => { l with head := h })) := ⟨rfl, rfl, rfl⟩
  refine Aside.trans ?_ (.of_zones (judgeMember_only p _))
  exact .ite (entered.trans ((Aside.of_zones (stopZone_only p _)).trans (.modPanel p _ _))) entered

theorem miss_aside (p : Nat) (s : State) : Aside s (miss p s) := by
  unfold miss
  dsimp only
  split
  · exact .ite ((Aside.modLink p _ s).trans (enterHead_aside p _ _)) (.modLink p _ s)
  · exact .ite ((Aside.modLink p _ s).trans ((Aside.modLink p _ _).trans (enterHead_aside p _ _))) (.modLink p _ s)
  · exact .refl s
  · exact .refl s
  · exact .refl s

theorem frameAction_aside (now p : Nat) (s : State) : Aside s (frameAction now p s) := by
  unfold frameAction
  split
  · exact (compose_aside now p s).trans (.modLink p _ _)
  · exact (compose_aside now p s).trans (.modLink p _ _)
  · exact .modLink p _ s
  · exact .ite ((Aside.modLink p _ s).trans (.modLink p _ _)) (.modLink p _ s)
  · exact .refl s

theorem frameTime_aside (p : Nat) (s : State) : Aside s (frameTime p s) := by
  unfold frameTime
  split
  · exact .refl s
  · refine (Aside.trans ?_ (frameAction_aside _ p _)).settled
    exact ⟨rfl, rfl, rfl⟩

theorem windowExpiry_aside (p : Nat) (s : State) : Aside s (windowExpiry p s) := by
  unfold windowExpiry
  split
  · exact .refl s
  · have closed : Aside s (closeWindow p s) := .modLink p _ s
    exact ((Aside.ite (closed.trans (.modLink p _ _)) closed).trans (miss_aside p _)).settled

theorem badShape_aside (p : Nat) (s : State) : Aside s (badShape p s) := by
  unfold badShape
  refine Aside.trans ?_ (miss_aside p _)
  exact ⟨rfl, rfl, rfl⟩

theorem clipReport_aside (p token : Nat) (r : ClipReport) (s : State) : Aside s (clipReport p token r s) := by
  unfold clipReport
  split
  · exact .refl s
  · refine .ite (.refl s) ?_
    split
    · exact .refl s
    · exact .modPanel p _ s
    · exact endPlay_aside p _ s
    · exact endPlay_aside p _ s
  · refine .ite (.refl s) ?_
    split
    · exact .refl s
    · exact .refl s
    · exact endPlay_aside p _ s
    · exact endPlay_aside p _ s

theorem takeStatus_aside (p : Nat) (r : Report) (s : State) : Aside s (takeStatus p r s) := by
  unfold takeStatus
  refine Aside.trans (clipReport_aside p r.token r.clip s) (Aside.trans (.foldl (fun u a => ?_) r.acks _) (.modLink p _ _))
  exact .ite (.modPanel p _ u) (.refl u)

theorem takeReport_aside (p : Nat) (r : Report) (s : State) : Aside s (takeReport p r s) := by
  unfold takeReport
  have cleared : Aside s (s.modLink p fun l => { l with missRun := 0 }) := .modLink p _ s
  exact (Aside.ite (cleared.trans (enterHead_aside p _ _)) cleared).trans (takeStatus_aside p r _)

theorem judgeClamps_aside (p : Nat) (i : Identity) (s : State) : Aside s (judgeClamps p i s) := by
  unfold judgeClamps
  exact .ite (.refl s) (.raise _ _ _ _ s)

theorem tellGeneration_aside (p : Nat) (l : LinkContext) (i : Identity) (s : State) : Aside s (tellGeneration p l i s) := by
  unfold tellGeneration
  exact .ite (.raise _ _ _ _ s) (.refl s)

theorem takeIdentity_aside (p : Nat) (i : Identity) (r : Report) (s : State) : Aside s (takeIdentity p i r s) := by
  unfold takeIdentity
  have live : Aside s (enterHead p .live (storeIdentity p i s)) := (Aside.modLink p _ s).trans (enterHead_aside p _ _)
  have zoned := Aside.ite (c := i.zone = true) live (live.trans (.of_zones (stopZone_only p _)))
  exact zoned.trans ((tellGeneration_aside p _ i _).trans ((judgeClamps_aside p i _).trans (takeStatus_aside p r _)))

theorem judgeReport_aside (p : Nat) (kind : FrameKind) (r : Report) (s : State) : Aside s (judgeReport p kind r s) := by
  unfold judgeReport
  refine .ite ((Aside.modLink p _ s).trans (miss_aside p _)) (.ite ((Aside.modLink p _ s).trans (miss_aside p _))
    (.ite (.modLink p _ s) ?_))
  unfold takeValid
  split
  · exact takeReport_aside p r s
  · exact takeReport_aside p r s
  · exact (enterHead_aside p _ s).trans (takeIdentity_aside p _ r _)
  · exact (enterHead_aside p _ s).trans (takeIdentity_aside p _ r _)
  · exact takeIdentity_aside p _ r s
  · exact takeIdentity_aside p _ r s
  · exact .refl s
  · exact .refl s
  · exact .refl s

theorem headReport_aside (p : Nat) (bytes : List Byte) (s : State) : Aside s (headReport p bytes s) := by
  unfold headReport
  split
  · exact .refl s
  · split
    · exact .refl s
    · exact (badShape_aside p s).settled
    · exact (badShape_aside p s).settled
    · exact ((Aside.modLink p _ s).trans (judgeReport_aside p _ _ _)).settled

theorem zoneDeadline_aside (p : Nat) (s : State) : Aside s (zoneDeadline p s) := by
  unfold zoneDeadline
  split
  · exact .refl s
  · exact .refl s
  all_goals
    refine (Aside.trans ?_ (endPlay_aside p _ _)).settled
    exact ⟨rfl, rfl, rfl⟩

theorem handEnabled_aside (before after : Bool) (p : Nat) (s : State) : Aside s (handEnabled before after p s) := by
  unfold handEnabled
  split
  · exact (Aside.modLink p _ s).trans (enterHead_aside p _ _)
  · exact (Aside.modLink p _ s).trans (enterHead_aside p _ _)
  · exact .refl s
  · exact .refl s

/-! ### The requests aside -/

theorem clearMarks_aside (id : Nat) (s : State) : Aside s (clearMarks id s) := ⟨rfl, rfl, rfl⟩

theorem modRefs_aside (k : Nat) (f : Nat → Option Nat) (s : State) : Aside s (modRefs k f s) := ⟨rfl, rfl, rfl⟩

theorem putEntry_aside (f : EntryFields) (s : State) : Aside s (putEntry f s).2 := by
  unfold putEntry
  split
  · exact .refl s
  · exact .refl s
  next how _ _ => cases how <;> exact ⟨rfl, rfl, rfl⟩

theorem dropEntry_aside (k p : Nat) (s : State) : Aside s (dropEntry k p s).2 := by
  unfold dropEntry
  split
  · exact .refl s
  · split
    · exact .refl s
    · exact ⟨rfl, rfl, rfl⟩

theorem endMode_aside (k : Nat) (s : State) : Aside s (endMode k s) := by
  refine (Aside.modCarousel k _ s).trans (.foldl (fun u p => ?_) panelNumbers _)
  unfold endModePlay
  split
  · exact .ite ⟨rfl, rfl, rfl⟩ (.refl u)
  · exact .refl u

theorem setCarousel_aside (f : CarouselFields) (s : State) : Aside s (setCarousel f s).2 := by
  unfold setCarousel
  split
  · exact .refl s
  · exact .ite (.modCarousel _ _ s) ((Aside.modCarousel _ _ s).trans (endMode_aside _ _))

theorem setPanel_aside (f : PanelFields) (s : State) : Aside s (setPanel f s).2 := by
  unfold setPanel
  split
  · exact .refl s
  · exact ((Aside.modPanel _ _ s).trans (handEnabled_aside _ _ _ _)).trans
      ((Aside.of_zones (judgeHush_only _ _)).trans (.of_zones (judgeMember_only _ _)))

theorem queryPanel_aside (p : Nat) (s : State) : Aside s (queryPanel p s).2 := by
  unfold queryPanel
  split
  · exact .refl s
  · exact .modLink _ _ s

theorem putAuditorium_aside (a name cap : Nat) (s : State) : Aside s (putAuditorium a name cap s).2 := by
  unfold putAuditorium
  iterate 2 (split; · exact .refl s)
  exact ⟨rfl, rfl, rfl⟩

theorem dropAuditorium_aside (a : Nat) (s : State) : Aside s (dropAuditorium a s).2 := by
  unfold dropAuditorium
  iterate 3 (split; · exact .refl s)
  exact ⟨rfl, rfl, rfl⟩

theorem setAudState_aside (a : Nat) (st : AudState) (s : State) : Aside s (setAudState a st s).2 := by
  unfold setAudState
  iterate 2 (split; · exact .refl s)
  exact ⟨rfl, rfl, rfl⟩

theorem putFeature_aside (f title rating run : Nat) (s : State) : Aside s (putFeature f title rating run s).2 := by
  unfold putFeature
  iterate 2 (split; · exact .refl s)
  exact ⟨rfl, rfl, rfl⟩

theorem dropFeature_aside (f : Nat) (s : State) : Aside s (dropFeature f s).2 := by
  unfold dropFeature
  iterate 3 (split; · exact .refl s)
  exact ⟨rfl, rfl, rfl⟩

theorem putText_aside (p : Port) (id : Nat) (bytes : List Byte) (s : State) : Aside s (putText p id bytes s).2 := by
  unfold putText
  iterate 2 (split; · exact .refl s)
  exact ⟨rfl, rfl, rfl⟩

theorem dropText_aside (p : Port) (id : Nat) (s : State) : Aside s (dropText p id s).2 := by
  unfold dropText
  iterate 4 (split; · exact .refl s)
  exact ⟨rfl, rfl, rfl⟩

theorem setFilter_aside (p : Port) (l : List (Byte × Half)) (s : State) : Aside s (setFilter p l s).2 := by
  unfold setFilter
  split
  · exact .refl s
  · exact ⟨rfl, rfl, rfl⟩

/-! ### The release of a reset, and the commands aside -/

theorem releaseReset_aside (kind : ResetKind) (s : State) : Aside s (releaseReset kind s) := by
  obtain ⟨r, e⟩ := releaseReset_eq kind s
  have judged : Aside s.atRelease (judgeHushAll s.atRelease) := .of_zones (judgeHushAll_only _)
  rw [e]
  generalize judgeHushAll s.atRelease = t at judged ⊢
  exact Aside.trans (t := s.atRelease) ⟨rfl, rfl, rfl⟩ (judged.trans ⟨rfl, rfl, rfl⟩)

/-- A query's answer depends on the state, and leaves it. -/
theorem queryHold_state (tag : Nat) (s : State) : (queryHold tag s).2 = s := by
  unfold queryHold
  split
  · rfl
  · split <;> rfl

theorem queryShowing_state (id : Nat) (s : State) : (queryShowing id s).2 = s := by
  unfold queryShowing
  split
  · rfl
  · split <;> rfl

theorem queryNotice_state (id : Nat) (s : State) : (queryNotice id s).2 = s := by
  unfold queryNotice
  split
  · rfl
  · split <;> rfl

theorem queryCarousel_state (k start : Nat) (s : State) : (queryCarousel k start s).2 = s := by
  unfold queryCarousel
  split <;> rfl

/-- The commands that leave showings, holds and notices alone. -/
def Instr.isAside : Instr → Bool
  | .powerOnReset _ | .pinReset _ | .secondEvent | .dwellExpiry _ | .holdExpiry _ | .salesStale | .minuteEvent | .midnightEvent
  | .flashTick | .setTime _ _ | .setBoard _ _ | .boardClear _ | .publish _ _ | .move _ _ | .delay _ _ _ | .setCapacity _ _ _
  | .cancel _ _ | .sell _ _ _ | .refund _ _ _ | .snapshot _ _ _ | .hold _ _ _ _ _ | .confirm _ _ _ | .release _ _
  | .postNotice _ _ | .withdrawNotice _ _ => false
  | _ => true

theorem exec_aside {c : Instr} (h : Instr.isAside c = true) (s : State) : ∃ t, exec c s = .next t ∧ Aside s t := by
  cases c
  case resetRelease =>
    refine ⟨_, rfl, ?_⟩
    split
    · exact .refl s
    · exact releaseReset_aside _ s
  case frameTime p => exact ⟨_, rfl, frameTime_aside _ s⟩
  case lostIdentify p => exact ⟨_, rfl, .ite (frameTime_aside _ s) (.refl s)⟩
  case replyWindowExpiry p => exact ⟨_, rfl, windowExpiry_aside _ s⟩
  case headReport p bytes => exact ⟨_, rfl, headReport_aside _ bytes s⟩
  case reportLengthFailure p length =>
    refine ⟨_, rfl, ?_⟩
    split
    · exact .refl s
    · exact .ite ((badShape_aside _ s).settled) (.refl s)
  case zoneDeadline p => exact ⟨_, rfl, zoneDeadline_aside _ s⟩
  case emptyTransaction port => exact ⟨_, rfl, .ite (modPort_quiet _ _ s).aside (modPort_quiet _ _ s).aside⟩
  case malformedMessage port bytes =>
    exact ⟨_, rfl, .ite (.refl s)
      (transaction_carries (I := Aside s) (fun _ _ q k => k.trans q.aside) (fun u k => k) (.refl s))⟩
  case nothing t => exact ⟨_, rfl, transaction_carries (I := Aside s) (fun _ _ q k => k.trans q.aside) (fun u k => k) (.refl s)⟩
  case readEvents t count => exact ⟨_, rfl, request_aside t _ _ _ (fun u => ⟨rfl, rfl, rfl⟩) s⟩
  case setFilter t pairs => exact ⟨_, rfl, request_aside t _ _ _ (setFilter_aside _ _) s⟩
  case queryBoard t => exact ⟨_, rfl, request_aside t _ _ _ (fun u => .refl u) s⟩
  case queryShowing t id => exact ⟨_, rfl, request_aside t _ _ _ (fun u => by rw [queryShowing_state]; exact .refl u) s⟩
  case queryHold t tag => exact ⟨_, rfl, request_aside t _ _ _ (fun u => by rw [queryHold_state]; exact .refl u) s⟩
  case queryNotice t id => exact ⟨_, rfl, request_aside t _ _ _ (fun u => by rw [queryNotice_state]; exact .refl u) s⟩
  case queryCarousel t k start => exact ⟨_, rfl, request_aside t _ _ _ (fun u => by rw [queryCarousel_state]; exact .refl u) s⟩
  case queryPanel t panel => exact ⟨_, rfl, request_aside t _ _ _ (queryPanel_aside _) s⟩
  case wake t => exact ⟨_, rfl, request_aside t _ _ _ (fun u => setHushWake_aside _ _ u) s⟩
  case putAuditorium t a name cap => exact ⟨_, rfl, request_aside t _ _ _ (putAuditorium_aside _ _ _) s⟩
  case dropAuditorium t a => exact ⟨_, rfl, request_aside t _ _ _ (dropAuditorium_aside _) s⟩
  case suspendAuditorium t a => exact ⟨_, rfl, request_aside t _ _ _ (setAudState_aside _ _) s⟩
  case resumeAuditorium t a => exact ⟨_, rfl, request_aside t _ _ _ (setAudState_aside _ _) s⟩
  case putFeature t f title rating run => exact ⟨_, rfl, request_aside t _ _ _ (putFeature_aside _ _ _ _) s⟩
  case dropFeature t f => exact ⟨_, rfl, request_aside t _ _ _ (dropFeature_aside _) s⟩
  case putText t id bytes => exact ⟨_, rfl, request_aside t _ _ _ (putText_aside _ _ _) s⟩
  case dropText t id => exact ⟨_, rfl, request_aside t _ _ _ (dropText_aside _ _) s⟩
  case readJournal t start count =>
    exact ⟨_, rfl, request_aside t _ _ _ (fun u => by rw [readJournal_state]; exact .refl u) s⟩
  case swapJournal t => exact ⟨_, rfl, request_aside t _ _ _ (fun u => ⟨rfl, rfl, rfl⟩) s⟩
  case putEntry t f => exact ⟨_, rfl, request_aside t _ _ _ (putEntry_aside f) s⟩
  case dropEntry t carousel position => exact ⟨_, rfl, request_aside t _ _ _ (dropEntry_aside _ _) s⟩
  case setCarousel t f => exact ⟨_, rfl, request_aside t _ _ _ (setCarousel_aside f) s⟩
  case setPanel t f => exact ⟨_, rfl, request_aside t _ _ _ (setPanel_aside f) s⟩
  case chipSelectAssertion port => exact ⟨_, rfl, (modPort_quiet port _ s).aside⟩
  all_goals cases h

end Sys2Proof.Machine
end

section
/-! PROOFS that H stays the sum of the live holds (R59, R67, R74). The invariant is carried with showings set aside, SeatedBut: between
the entry into CLOSED or CANCELLED and the release of its holds a showing's holds name a showing that takes none. -/

namespace Sys2Proof.Machine

/-! ### What keeps the seats -/

/-- Showings and holds stand as they were. -/
structure SameSeats (s t : State) : Prop where
  showings : t.showings = s.showings
  holds : t.holds = s.holds

namespace SameSeats

theorem refl (s : State) : SameSeats s s := ⟨rfl, rfl⟩

theorem trans {s t u : State} (h : SameSeats s t) (k : SameSeats t u) : SameSeats s u :=
  ⟨k.showings.trans h.showings, k.holds.trans h.holds⟩

theorem foldl {α : Type} {f : State → α → State} (h : ∀ u x, SameSeats u (f u x)) (l : List α) (s : State) :
    SameSeats s (l.foldl f s) :=
  foldl_rel SameSeats refl trans f h l s

theorem ite {c : Prop} [Decidable c] {s t u : State} (h : SameSeats s t) (k : SameSeats s u) : SameSeats s (if c then t else u) := by
  split
  · exact h
  · exact k

theorem raise {s t : State} (h : SameSeats s t) (g : Source) (k : EventKind) (n d : Nat) : SameSeats s (raise g k n d t) := ⟨h.1, h.2⟩

theorem noticesTo {s t : State} (h : SameSeats s t) (n : NoticeUnit) : SameSeats s { t with notices := n } := ⟨h.1, h.2⟩

theorem raises {α : Type} {s t : State} (h : SameSeats s t) (g : α → Source) (n : α → Nat) (k : EventKind) (d : Nat)
    (l : List α) : SameSeats s (l.foldl (fun u x => Sys2Proof.Machine.raise (g x) k (n x) d u) t) :=
  h.trans (foldl_rel SameSeats refl trans _ (fun _ _ => by exact ⟨rfl, rfl⟩) l t)

theorem of_zones {s t : State} (h : OnlyZones s t) : SameSeats s t := by
  obtain ⟨_, _, _, rfl⟩ := h
  exact ⟨rfl, rfl⟩

end SameSeats

theorem Aside.seats {s t : State} (h : Aside s t) : SameSeats s t := ⟨h.showings, h.holds⟩

theorem SameSeats.judgeTakeover {s t : State} (h : SameSeats s t) : SameSeats s (judgeTakeover t) :=
  (h.noticesTo { t.notices with takeover := panelNumbers.map t.takeoverDue }).trans (.of_zones (judgeTakeover_only t))

theorem SameSeats.freeNotices {s t : State} (h : SameSeats s t) (ids : List Nat) : SameSeats s (freeNotices ids t) :=
  h.noticesTo _

theorem retireNotices_seats (g : Source) (ids : List Nat) (s : State) : SameSeats s (retireNotices g ids s) := by
  unfold retireNotices
  have chosen : SameSeats s { s with choice := s.choice + ids.length } := ⟨rfl, rfl⟩
  exact .ite (.refl s) (((chosen.raises (fun _ => g) (fun id => id) .noticeState noticeRetired _).freeNotices ids).judgeTakeover)

theorem retireDelayed_seats (g : Source) (id : Nat) (s : State) : SameSeats s (retireDelayed g id s) := by
  unfold retireDelayed
  split
  · exact retireNotices_seats g _ s
  · exact .refl s

theorem noticeForDelay_seats (id delay : Nat) (s : State) : SameSeats s (noticeForDelay id delay s).1 := by
  unfold noticeForDelay
  split
  · exact retireDelayed_seats _ id s
  · split
    · exact ⟨rfl, rfl⟩
    · unfold createDelayed
      split
      · split
        · exact ⟨rfl, rfl⟩
        · exact .refl s
      · exact .refl s

theorem noticeMinute_seats (source : Notice → Source) (s : State) : SameSeats s (noticeMinute source s) := by
  unfold noticeMinute
  have activated := (SameSeats.refl s).noticesTo { s.notices with
    table := s.notices.table.map fun n => if n.activationDue s.cal.m then n.activate s.cal.m s.cal.second else n
    activation := s.notices.activation ++ (s.notices.table.filter (Notice.activationDue s.cal.m)).map Notice.id }
  exact ((((activated.raises source Notice.id .noticeState noticeActive _).raises source Notice.id .noticeState
    noticeExpired _).judgeTakeover).freeNotices _).judgeTakeover

theorem postNotice_seats (f : NoticeFields) (s : State) : SameSeats s (postNotice f s).2 := by
  unfold postNotice
  split
  · exact .refl s
  · refine SameSeats.judgeTakeover (SameSeats.raise (SameSeats.noticesTo ?_ _) _ _ _ _)
    split
    · exact ((SameSeats.refl s).freeNotices _).raise _ _ _ _
    · exact .refl s

theorem withdrawNotice_seats (id : Nat) (s : State) : SameSeats s (withdrawNotice id s).2 := by
  unfold withdrawNotice
  iterate 2 (split; · exact .refl s)
  exact ((((SameSeats.refl s).raise (.notice id) .noticeState id noticeWithdrawn).freeNotices [id])).judgeTakeover

/-! ### The invariant with showings set aside -/

/-- Seated, but a hold may name a showing of `spare` that takes no holds. -/
structure State.SeatedBut (spare : Nat → Prop) (s : State) : Prop where
  showings : Rising (s.showings.map Showing.id)
  holds : Rising (s.holds.map Hold.tag)
  sums : ∀ x ∈ s.showings, x.held = s.heldBy x.id
  named : ∀ h ∈ s.holds, ∃ x ∈ s.showings, x.id = h.showing ∧ (spare h.showing ∨ x.state.holds = true)

/-- No showing set aside. -/
def noSpare (_ : Nat) : Prop := False

theorem seatedBut_none (s : State) : s.SeatedBut noSpare ↔ s.Seated :=
  ⟨fun h => ⟨h.showings, h.holds, h.sums, fun a ha => by simpa [noSpare] using h.named a ha⟩,
   fun h => ⟨h.showings, h.holds, h.sums, fun a ha => by simpa [noSpare] using h.named a ha⟩⟩

theorem State.heldBy_congr {s t : State} (h : t.holds = s.holds) (id : Nat) : t.heldBy id = s.heldBy id := by
  unfold State.heldBy
  rw [h]

theorem State.SeatedBut.same {P : Nat → Prop} {s t : State} (k : SameSeats s t) (h : s.SeatedBut P) : t.SeatedBut P := by
  obtain ⟨hs, hh⟩ := k
  refine ⟨by rw [hs]; exact h.showings, by rw [hh]; exact h.holds, fun x hx => ?_, by rw [hs, hh]; exact h.named⟩
  rw [State.heldBy_congr hh]
  exact h.sums x (hs ▸ hx)

theorem State.SeatedBut.frame {P : Nat → Prop} {s t : State} (h : s.SeatedBut P) (hs : t.showings = s.showings)
    (hh : t.holds = s.holds) : t.SeatedBut P :=
  h.same ⟨hs, hh⟩

theorem State.SeatedBut.raise {P : Nat → Prop} {s : State} (h : s.SeatedBut P) (g : Source) (k : EventKind) (n d : Nat) :
    (raise g k n d s).SeatedBut P := h.frame rfl rfl

theorem State.SeatedBut.chosen {P : Nat → Prop} {s : State} (h : s.SeatedBut P) (k : Nat) :
    State.SeatedBut P { s with choice := k } := h.frame rfl rfl

theorem State.SeatedBut.boxed {P : Nat → Prop} {s : State} (h : s.SeatedBut P) (l : List (Source × EventRecord)) :
    State.SeatedBut P { s with outbox := l } := h.frame rfl rfl

theorem State.SeatedBut.dated {P : Nat → Prop} {s : State} (h : s.SeatedBut P) (c : Calendar) :
    State.SeatedBut P { s with cal := c } := h.frame rfl rfl

/-- A change of the records that keeps ids and held seats, and leaves every record that takes holds one that does, or sets it aside. -/
theorem State.SeatedBut.map {P Q : Nat → Prop} {s t : State} {f : Showing → Showing} (h : s.SeatedBut P)
    (hs : t.showings = s.showings.map f) (hh : t.holds = s.holds)
    (keep : ∀ x ∈ s.showings, (f x).id = x.id ∧ (f x).held = x.held)
    (still : ∀ x ∈ s.showings, P x.id ∨ x.state.holds = true → Q x.id ∨ (f x).state.holds = true) : t.SeatedBut Q := by
  have ids : (s.showings.map f).map Showing.id = s.showings.map Showing.id := by
    rw [List.map_map]
    exact List.map_congr_left fun x hx => (keep x hx).1
  refine ⟨by rw [hs, ids]; exact h.showings, by rw [hh]; exact h.holds, fun y hy => ?_, fun a ha => ?_⟩
  · obtain ⟨x, hx, rfl⟩ := List.mem_map.1 (hs ▸ hy)
    obtain ⟨hid, hheld⟩ := keep x hx
    rw [hid, hheld, State.heldBy_congr hh]
    exact h.sums x hx
  · obtain ⟨x, hx, hid, hst⟩ := h.named a (hh ▸ ha)
    refine ⟨f x, hs ▸ List.mem_map_of_mem hx, (keep x hx).1.trans hid, ?_⟩
    rw [← hid] at hst ⊢
    exact still x hx hst

theorem State.SeatedBut.weaken {P Q : Nat → Prop} {s : State} (h : s.SeatedBut P) (hPQ : ∀ i, P i → Q i) : s.SeatedBut Q :=
  ⟨h.showings, h.holds, h.sums, fun a ha => by
    obtain ⟨x, hx, hid, hst⟩ := h.named a ha
    exact ⟨x, hx, hid, hst.imp_left (hPQ _)⟩⟩

theorem State.SeatedBut.modShowing {P Q : Nat → Prop} {s : State} {id : Nat} {f : Showing → Showing} (h : s.SeatedBut P)
    (keep : ∀ x, (f x).id = x.id ∧ (f x).held = x.held)
    (still : ∀ x ∈ s.showings, x.id = id → P id ∨ x.state.holds = true → Q id ∨ (f x).state.holds = true)
    (others : ∀ i, i ≠ id → P i → Q i) : (s.modShowing id f).SeatedBut Q := by
  refine h.map (t := s.modShowing id f) (f := fun x => if x.id = id then f x else x) rfl rfl (fun x hx => ?_) (fun x hx hst => ?_)
  · split
    · exact keep x
    · exact ⟨rfl, rfl⟩
  · split
    next e => rw [e] at hst ⊢; exact still x hx e hst
    next e => exact hst.imp_left (others _ e)

/-- A change that keeps id, held seats and state keeps the invariant. -/
theorem State.SeatedBut.modFields {P : Nat → Prop} {s : State} {id : Nat} {f : Showing → Showing} (h : s.SeatedBut P)
    (keep : ∀ x, (f x).id = x.id ∧ (f x).held = x.held ∧ (f x).state = x.state) : (s.modShowing id f).SeatedBut P :=
  h.modShowing (fun x => ⟨(keep x).1, (keep x).2.1⟩) (fun x _ _ hst => by rw [(keep x).2.2]; exact hst) fun _ _ hP => hP

/-- The record found under an id is the only one of that id. -/
theorem State.SeatedBut.unique {P : Nat → Prop} {s : State} (h : s.SeatedBut P) {id : Nat} {x y : Showing}
    (hx : s.showing? id = some x) (hy : y ∈ s.showings) (e : y.id = id) : y = x := by
  have found := findKey_of_mem Showing.id h.showings hy
  rw [e] at found
  exact Option.some.inj (found.symm.trans hx)

/-- One showing's record and the holds change together, so that its held seats stay their sum. -/
theorem State.SeatedBut.change {P Q : Nat → Prop} {s t : State} {id : Nat} {x y : Showing} (h : s.SeatedBut P)
    (hx : s.showing? id = some x) (hs : t.showings = modKey Showing.id id (fun _ => y) s.showings)
    (hid : y.id = id) (hst : y.state = x.state) (hsum : y.held = t.heldBy id)
    (hothers : ∀ i, i ≠ id → t.heldBy i = s.heldBy i) (hrise : Rising (t.holds.map Hold.tag))
    (hnamed : ∀ a ∈ t.holds, (a ∈ s.holds ∧ (P a.showing → Q a.showing)) ∨ (a.showing = id ∧ x.state.holds = true)) :
    t.SeatedBut Q := by
  obtain ⟨hxm, hxid⟩ := findKey_mem Showing.id hx
  have ym : y ∈ t.showings := by
    rw [hs]
    exact List.mem_map.2 ⟨x, hxm, by rw [if_pos hxid]⟩
  refine ⟨?_, hrise, fun z hz => ?_, fun a ha => ?_⟩
  · rw [hs, map_key_modKey Showing.id id _ _ fun _ _ => hid]
    exact h.showings
  · rw [hs] at hz
    obtain ⟨w, hw, rfl⟩ := List.mem_map.1 hz
    dsimp only
    split
    · rw [hid]; exact hsum
    next e => rw [hothers _ e]; exact h.sums w hw
  · rcases hnamed a ha with ⟨has, hPQ⟩ | ⟨e, hholds⟩
    · obtain ⟨w, hw, hwid, hwst⟩ := h.named a has
      by_cases e : w.id = id
      · obtain rfl := h.unique hx hw e
        exact ⟨y, ym, by rw [hid, ← e, hwid], (hwst.imp_left hPQ).imp_right fun k => by rw [hst]; exact k⟩
      · refine ⟨w, ?_, hwid, hwst.imp_left hPQ⟩
        rw [hs]
        exact List.mem_map.2 ⟨w, hw, by rw [if_neg e]⟩
    · exact ⟨y, ym, by rw [hid, e], .inr (by rw [hst]; exact hholds)⟩

/-! ### Seat changes -/

@[simp] theorem Showing.inLine_id (f : FigureSettings) (m : Nat) (x : Showing) : (x.inLine f m).id = x.id := rfl
@[simp] theorem Showing.inLine_held (f : FigureSettings) (m : Nat) (x : Showing) : (x.inLine f m).held = x.held := rfl
@[simp] theorem Showing.inLine_state (f : FigureSettings) (m : Nat) (x : Showing) : (x.inLine f m).state = x.state := rfl

/-- A seat change stores the record brought into line, and leaves the holds. -/
theorem changeSeats_seats (g : Source) {id : Nat} (f : Showing → Showing) {s : State} {x : Showing} (hx : s.showing? id = some x) :
    (changeSeats g id f s).showings = modKey Showing.id id (fun _ => (f x).inLine s.figure s.cal.m) s.showings ∧
      (changeSeats g id f s).holds = s.holds := by
  unfold changeSeats
  rw [hx]
  dsimp only
  split <;> split <;> exact ⟨rfl, rfl⟩

theorem journalShowing_seats (g : Source) (kind : JournalKind) (id n : Nat) (s : State) :
    SameSeats s (journalShowing g kind id n s) := by
  unfold journalShowing
  split <;> exact ⟨rfl, rfl⟩

theorem seatChange_seats (kind : JournalKind) {id : Nat} (n : Nat) (f : Showing → Showing) {s : State} {x : Showing}
    (hx : s.showing? id = some x) :
    (seatChange kind id n f s).showings = modKey Showing.id id (fun _ => (f x).inLine s.figure s.cal.m) s.showings ∧
      (seatChange kind id n f s).holds = s.holds := by
  obtain ⟨hs, hh⟩ := changeSeats_seats (.seats id) f hx
  obtain ⟨ks, kh⟩ := journalShowing_seats (.seats id) kind id n (changeSeats (.seats id) id f s)
  exact ⟨ks.trans hs, kh.trans hh⟩

/-- A seat change that takes no hold: it keeps the invariant where it keeps id, held seats and state. -/
theorem seatChange_seated {P : Nat → Prop} (kind : JournalKind) (id n : Nat) {f : Showing → Showing}
    (keep : ∀ x, (f x).id = x.id ∧ (f x).held = x.held ∧ (f x).state = x.state) {s : State} (h : s.SeatedBut P) :
    (seatChange kind id n f s).SeatedBut P := by
  cases hx : s.showing? id with
  | none => exact h.same (by simp only [seatChange, changeSeats, hx]; exact journalShowing_seats _ _ _ _ _)
  | some x =>
    obtain ⟨hs, hh⟩ := seatChange_seats kind n f hx
    obtain ⟨kid, kheld, kstate⟩ := keep x
    obtain ⟨hxm, hxid⟩ := findKey_mem Showing.id hx
    refine h.change hx hs (kid.trans hxid) kstate ?_ (fun i _ => State.heldBy_congr hh i) (by rw [hh]; exact h.holds)
      fun a ha => .inl ⟨hh ▸ ha, fun hP => hP⟩
    rw [State.heldBy_congr hh]
    exact kheld.trans (hxid ▸ h.sums x hxm)

theorem recomputeFast_seated {P : Nat → Prop} (id : Nat) {s : State} (h : s.SeatedBut P) : (recomputeFast id s).SeatedBut P :=
  h.modFields fun _ => ⟨rfl, rfl, rfl⟩

/-! ### Holds ended -/

/-- The counts of some holds of a list and of the rest of it add up. -/
theorem holdSum_split (q r : Hold → Bool) (l : List Hold) (h : ∀ a, q a = true → r a = true) :
    holdSum (l.filter r) = holdSum (l.filter q) + holdSum ((l.filter fun a => !q a).filter r) := by
  induction l with
  | nil => rfl
  | cons a l ih =>
    by_cases hq : q a = true
    · simp_all [holdSum, Nat.add_assoc]
    · by_cases hr : r a = true
      · simp_all [holdSum]; omega
      · simp_all [holdSum]

/-- Tags tell holds apart. -/
theorem tags_of_filter {l : List Hold} (h : Rising (l.map Hold.tag)) (q : Hold → Bool) :
    (l.filter fun a => !((l.filter q).map Hold.tag).contains a.tag) = l.filter fun a => !q a := by
  refine List.filter_congr fun a ha => ?_
  congr 1
  rw [Bool.eq_iff_iff]
  simp only [List.contains_iff_mem, List.mem_map, List.mem_filter]
  constructor
  · rintro ⟨b, ⟨hb, hq⟩, e⟩
    have hfa := findKey_of_mem Hold.tag h ha
    have hfb := findKey_of_mem Hold.tag h hb
    rw [e] at hfb
    obtain rfl := Option.some.inj (hfb.symm.trans hfa)
    exact hq
  · exact fun hq => ⟨a, ⟨ha, hq⟩, rfl⟩

/-- What ended holds leave: the other holds, and the record with the held seats of those ended taken off. -/
theorem endHolds_seats (g : Source) (reason : Nat) (kind : JournalKind) {id : Nat} (ended : List Hold) (f : Showing → Showing)
    {s : State} {x : Showing} (hx : s.showing? id = some x) :
    (∃ y, (endHolds g reason kind id ended f s).showings = modKey Showing.id id (fun _ => y) s.showings ∧
      y = (f { x with held := x.held - holdSum ended }).inLine s.figure s.cal.m) ∧
      (endHolds g reason kind id ended f s).holds = s.holds.filter fun h => !(ended.map Hold.tag).contains h.tag := by
  unfold endHolds
  rw [hx]
  dsimp only
  generalize e0 : ({ s with
      choice := s.choice + ended.length
      holds := s.holds.filter fun h => !(ended.map Hold.tag).contains h.tag } : State) = t0
  have told : ∀ (l : List Hold) (u : State),
      DayFrame u (l.foldl (fun t h => raise g .holdEnded h.tag reason t) u) ∧
        SameSeats u (l.foldl (fun t h => raise g .holdEnded h.tag reason t) u) := fun l u =>
    ⟨foldl_rel DayFrame .refl .trans _ (fun u h => by exact rfl) l u, foldl_rel SameSeats .refl .trans _ (fun _ _ => by exact ⟨rfl, rfl⟩) l u⟩
  have written : ∀ (l : List JournalEntry) (u : State),
      DayFrame u (l.foldl (fun t e => journalize g e t) u) ∧ SameSeats u (l.foldl (fun t e => journalize g e t) u) := fun l u =>
    ⟨foldl_rel DayFrame .refl .trans _ (fun u h => by exact rfl) l u, foldl_rel SameSeats .refl .trans _ (fun _ _ => by exact ⟨rfl, rfl⟩) l u⟩
  obtain ⟨f1, k1⟩ := told (anyOrder s.choice (fun h => Source.hold h.tag) ended) t0
  obtain ⟨f2, k2⟩ := written (endEntries (s.entryFor kind x 0) (anyOrder s.choice (fun h => Source.hold h.tag) ended))
    ((anyOrder s.choice (fun h => Source.hold h.tag) ended).foldl (fun t h => raise g .holdEnded h.tag reason t) t0)
  have k := k1.trans k2
  have fr := f1.trans f2
  revert k fr
  generalize List.foldl (fun t e => journalize g e t) _ _ = t2
  intro k fr
  have hx2 : t2.showing? id = some x := by
    unfold State.showing?
    rw [k.showings, ← e0]
    exact hx
  obtain ⟨hs, hh⟩ := changeSeats_seats g (fun y => f { y with held := y.held - holdSum ended }) hx2
  refine ⟨⟨_, ?_, rfl⟩, ?_⟩
  · rw [hs, fr.figure, fr.cal, k.showings, ← e0]
  · rw [hh, k.holds, ← e0]

/-- Some holds of one showing ended: H stays the sum of those left. -/
theorem endHolds_seated {P Q : Nat → Prop} (g : Source) (reason : Nat) (kind : JournalKind) {id : Nat} {f : Showing → Showing}
    (keep : ∀ x, (f x).id = x.id ∧ (f x).held = x.held ∧ (f x).state = x.state) {s : State} (h : s.SeatedBut P)
    {q : Hold → Bool} (hq : ∀ a, q a = true → a.showing = id) {x : Showing} (hx : s.showing? id = some x)
    (hPQ : ∀ a ∈ s.holds, q a = false → P a.showing → Q a.showing) :
    (endHolds g reason kind id (s.holds.filter q) f s).SeatedBut Q ∧
      (endHolds g reason kind id (s.holds.filter q) f s).holds = s.holds.filter fun a => !q a := by
  obtain ⟨⟨y, hs, rfl⟩, hh⟩ := endHolds_seats g reason kind (s.holds.filter q) f hx
  rw [tags_of_filter h.holds] at hh
  obtain ⟨hxm, hxid⟩ := findKey_mem Showing.id hx
  obtain ⟨kid, kheld, kstate⟩ := keep { x with held := x.held - holdSum (s.holds.filter q) }
  refine ⟨h.change hx hs (kid.trans hxid) kstate ?_ (fun i hi => ?_) (by rw [hh]; exact rising_filter Hold.tag _ h.holds)
    (fun a ha => ?_), hh⟩
  · have split := holdSum_split q (fun a => a.showing == id) s.holds fun a ha => by simpa using hq a ha
    have sum : x.held = holdSum (s.holds.filter fun a => a.showing == id) := hxid ▸ h.sums x hxm
    rw [Showing.inLine_held, kheld]
    unfold State.heldBy
    rw [hh]
    dsimp only
    omega
  · unfold State.heldBy
    rw [hh, List.filter_filter]
    congr 1
    refine List.filter_congr fun a _ => ?_
    by_cases ha : a.showing = i
    · have : q a = false := Bool.eq_false_iff.2 fun hqa => hi (ha ▸ hq a hqa)
      simp [this]
    · simp [ha]
  · obtain ⟨has, hqa⟩ := List.mem_filter.1 (hh ▸ ha)
    exact .inl ⟨has, hPQ a has (by simpa using hqa)⟩

/-- The release of every hold on a showing brings back the invariant of one whose state takes no holds any more. -/
theorem releaseHolds_seated (g : Source) (reason : Nat) (kind : JournalKind) {id : Nat} {s : State}
    (h : s.SeatedBut (· = id)) : (releaseHolds g reason kind id s).SeatedBut noSpare := by
  cases hx : s.showing? id with
  | none =>
    have absent : ∀ a ∈ s.holds, a.showing ≠ id := fun a ha e => by
      obtain ⟨x, hxm, hid, _⟩ := h.named a ha
      exact (findKey_eq_none Showing.id).1 hx x hxm (hid.trans e)
    have alike : releaseHolds g reason kind id s = s := by simp only [releaseHolds, endHolds, hx]
    rw [alike]
    exact ⟨h.showings, h.holds, h.sums, fun a ha => by
      obtain ⟨x, hxm, hid, hst⟩ := h.named a ha
      exact ⟨x, hxm, hid, hst.imp_left (absent a ha)⟩⟩
  | some x =>
    exact (endHolds_seated (Q := noSpare) g reason kind (f := fun y => { y with pace := 0 }) (fun _ => ⟨rfl, rfl, rfl⟩) h
      (q := fun a => a.showing == id) (fun a ha => by simpa using ha) hx
      fun a _ hqa hP => absurd hP (by simpa using hqa)).1

/-- Holds that run out end one showing after another. -/
theorem expireFold_seated (source : Nat → Source) (expired : List Hold) (q : Hold → Bool) (ids : List Nat) (hnd : ids.Nodup)
    {t : State} (h : t.SeatedBut noSpare) (live : ∀ id ∈ ids, (t.showing? id).isSome = true)
    (held : ∀ id ∈ ids, expired.filter (fun a => a.showing == id) = t.holds.filter fun a => q a && a.showing == id) :
    (ids.foldl (fun t id => endHolds (source id) endExpired .expire id (expired.filter fun a => a.showing == id) (fun y => y) t)
      t).SeatedBut noSpare := by
  induction ids generalizing t with
  | nil => exact h
  | cons id ids ih =>
    obtain ⟨hnot, hnd'⟩ := List.nodup_cons.1 hnd
    obtain ⟨x, hx⟩ := Option.isSome_iff_exists.1 (live id (by simp))
    have here := held id (by simp)
    obtain ⟨hseated, hholds⟩ := endHolds_seated (Q := noSpare) (source id) endExpired .expire (f := fun y => y)
      (fun _ => ⟨rfl, rfl, rfl⟩) h (q := fun a => q a && a.showing == id)
      (fun a ha => by simpa using (Bool.and_eq_true_iff.1 ha).2) hx fun _ _ _ hP => hP
    rw [List.foldl_cons, here]
    refine ih hnd' hseated (fun i hi => ?_) (fun i hi => ?_)
    · obtain ⟨⟨y, hs, hy⟩, -⟩ := endHolds_seats (source id) endExpired .expire
        (t.holds.filter fun a => q a && a.showing == id) (fun y => y) hx
      have ne : i ≠ id := fun e => hnot (e ▸ hi)
      have hyid : y.id = id := by rw [hy]; exact (findKey_mem Showing.id hx).2
      unfold State.showing?
      rw [hs, findKey_modKey_other Showing.id id i _ _ (fun _ _ => hyid) ne]
      exact live i (by simp [hi])
    · have ne : i ≠ id := fun e => hnot (e ▸ hi)
      rw [held i (by simp [hi]), hholds, List.filter_filter]
      refine List.filter_congr fun a _ => ?_
      by_cases ha : a.showing = i
      · have : ¬ a.showing = id := fun e => ne (ha.symm.trans e)
        simp [ha, ne]
      · simp [ha]

theorem expireHolds_seated (source : Nat → Source) {s : State} (h : s.SeatedBut noSpare) :
    (expireHolds source s).SeatedBut noSpare := by
  unfold expireHolds
  dsimp only
  refine expireFold_seated source s.expired (fun a => a.remaining == 0) _ ?_ h (fun id hid => ?_) (fun id _ => ?_)
  · exact (h.showings.imp fun lt => Nat.ne_of_lt lt).filter _
  · obtain ⟨x, hx, rfl⟩ := List.mem_map.1 (List.mem_filter.1 hid).1
    rw [State.showing?, findKey_of_mem Showing.id h.showings hx]
    rfl
  · unfold State.expired
    rw [List.filter_filter]
    exact List.filter_congr fun a _ => Bool.and_comm _ _

/-! ### The lifecycle -/

section Due
variable {life : LifeSettings} {m : Nat} {x : Showing}

theorem due_planned (h : x.state = .planned) :
    x.due life m = if x.salesOpen.elim true (fun o => decide (o ≤ m)) = true then some (.enter .onSale) else none := by
  unfold Showing.due
  rw [h]
  cases x.salesOpen <;> simp

theorem due_onSale (h : x.state = .onSale) :
    x.due life m = if x.effective ≤ m + life.lead then some (.enter .seating) else none := by simp only [Showing.due, h]

theorem due_seating (h : x.state = .seating) :
    x.due life m = if x.effective ≤ m then some (.enter .started) else none := by simp only [Showing.due, h]

theorem due_started (h : x.state = .started) :
    x.due life m = if x.effective + life.late ≤ m then some (.enter .closed) else none := by simp only [Showing.due, h]

theorem due_closed (h : x.state = .closed) :
    x.due life m = if x.effective + x.runtime ≤ m then some (.enter .ended) else none := by simp only [Showing.due, h]

theorem due_gone (h : x.state = .ended ∨ x.state = .cancelled) :
    x.due life m = if x.purge.elim false (fun d => decide (d ≤ m)) = true then some .free else none := by
  unfold Showing.due
  rcases h with h | h <;> rw [h] <;> cases x.purge <;> simp

end Due

/-- A transition that is due leads out of a state that takes holds only into another or into CLOSED (R38, R68). -/
theorem due_enter_holds {life : LifeSettings} {m : Nat} {x : Showing} {st : ShowState} (h : x.due life m = some (.enter st))
    (hx : x.state.holds = true) : st.holds = true ∨ st = .closed := by
  cases e : x.state
  case onSale => rw [due_onSale e] at h; split at h <;> cases h; exact .inl rfl
  case seating => rw [due_seating e] at h; split at h <;> cases h; exact .inl rfl
  case started => rw [due_started e] at h; split at h <;> cases h; exact .inr rfl
  all_goals rw [e] at hx; cases hx

/-- Only a record whose state takes no holds is freed (R44). -/
theorem due_free_holds {life : LifeSettings} {m : Nat} {x : Showing} (h : x.due life m = some .free) : x.state.holds = false := by
  cases e : x.state
  case onSale => rw [due_onSale e] at h; split at h <;> cases h
  case seating => rw [due_seating e] at h; split at h <;> cases h
  case started => rw [due_started e] at h; split at h <;> cases h
  all_goals rfl

theorem enterState_seated {P Q : Nat → Prop} {id : Nat} {st : ShowState} {s : State} (h : s.SeatedBut P)
    (still : ∀ x ∈ s.showings, x.id = id → P id ∨ x.state.holds = true → Q id ∨ st.holds = true)
    (others : ∀ i, i ≠ id → P i → Q i) : (enterState id st s).SeatedBut Q := by
  unfold enterState
  have entered : (s.modShowing id fun x => { x with state := st }).SeatedBut Q := h.modShowing (fun _ => ⟨rfl, rfl⟩) still others
  exact recomputeFast_seated id (entered.frame rfl rfl)

theorem transitionTo_seated {id : Nat} {st : ShowState} {s : State} {x : Showing} (h : s.SeatedBut noSpare)
    (hx : s.showing? id = some x) (hdue : x.due s.life s.cal.m = some (.enter st)) : (transitionTo id st s).SeatedBut noSpare := by
  have still : ∀ y ∈ s.showings, y.id = id → y.state.holds = true → st.holds = true ∨ st = .closed := fun y hy e hst =>
    due_enter_holds hdue (h.unique hx hy e ▸ hst)
  have enter : ∀ {u : State}, u.SeatedBut noSpare → (∀ y ∈ u.showings, y.id = id → y.state.holds = true → st.holds = true) →
      (enterState id st u).SeatedBut noSpare := fun hu k =>
    enterState_seated hu (fun y hy e hst => .inr (k y hy e (hst.resolve_left fun f => f))) fun _ _ hP => hP
  unfold transitionTo
  cases st with
  | closed =>
    exact releaseHolds_seated _ _ _ (enterState_seated h (fun y hy e _ => .inl rfl) fun _ _ hP => hP.elim)
  | ended =>
    refine State.SeatedBut.same (retireNotices_seats _ _ _) (enter (h.modFields fun _ => ⟨rfl, rfl, rfl⟩) fun y hy e hst => ?_)
    obtain ⟨z, hz, rfl⟩ := List.mem_map.1 hy
    have key : z.id = id ∧ z.state.holds = true := by
      split at e <;> split at hst <;> exact ⟨e, hst⟩
    simpa using still z hz key.1 key.2
  | started => exact State.SeatedBut.same (retireDelayed_seats _ _ _) (enter h fun y hy e hst => by simpa using still y hy e hst)
  | planned => exact enter h fun y hy e hst => by simpa using still y hy e hst
  | onSale => exact enter h fun y hy e hst => by simpa using still y hy e hst
  | seating => exact enter h fun y hy e hst => by simpa using still y hy e hst
  | cancelled => exact enter h fun y hy e hst => by simpa using still y hy e hst

theorem freeShowing_seated {s : State} {x : Showing} (h : s.SeatedBut noSpare) (hx : s.showing? x.id = some x)
    (hst : x.state.holds = false) : (freeShowing x s).SeatedBut noSpare := by
  have retired : (retireLinked x.id (raise (.showing x.id) .showingFreed x.id x.state.code s)).SeatedBut noSpare :=
    (h.raise _ _ _ _).same (retireNotices_seats _ _ _)
  have same : SameSeats s (retireLinked x.id (raise (.showing x.id) .showingFreed x.id x.state.code s)) :=
    ((SameSeats.refl s).raise _ _ _ _).trans (retireNotices_seats _ _ _)
  unfold freeShowing
  revert retired same
  generalize retireLinked x.id (raise (.showing x.id) .showingFreed x.id x.state.code s) = t
  intro retired same
  refine ⟨rising_eraseKey Showing.id x.id retired.showings, retired.holds,
    fun y hy => retired.sums y (List.mem_filter.1 hy).1, fun a ha => ?_⟩
  obtain ⟨y, hy, hid, hyst⟩ := retired.named a ha
  refine ⟨y, List.mem_filter.2 ⟨hy, ?_⟩, hid, hyst⟩
  have ne : y.id ≠ x.id := fun e => by
    obtain rfl := h.unique hx (same.showings ▸ hy) e
    exact absurd (hyst.resolve_left fun f => f) (by simp [hst])
  simpa using ne

theorem judgeShowing_seated (n id : Nat) {s : State} (h : s.SeatedBut noSpare) : (judgeShowing n id s).SeatedBut noSpare := by
  induction n generalizing s with
  | zero => exact h
  | succ n ih =>
    unfold judgeShowing
    split
    · exact h
    next x hx =>
      split
      · exact h
      next st hdue => exact ih (transitionTo_seated h hx hdue)
      next hdue =>
        obtain rfl := (findKey_mem Showing.id hx).2
        exact freeShowing_seated h hx (due_free_holds hdue)

/-- A fold of steps that keep an invariant keeps it. -/
theorem foldl_keeps {α β : Type} {I : β → Prop} {f : β → α → β} (h : ∀ u x, I u → I (f u x)) (l : List α) {s : β} (hs : I s) :
    I (l.foldl f s) := by
  induction l generalizing s with
  | nil => exact hs
  | cons x l ih => exact ih (h s x hs)

theorem judgeAll_seated {s : State} (h : s.SeatedBut noSpare) : (judgeAll s).SeatedBut noSpare :=
  foldl_keeps (I := State.SeatedBut noSpare) (fun _ id k => judgeShowing_seated lifeSteps id k) _ h

/-! ### Minutes and seconds -/

theorem paceMinute_seated {P : Nat → Prop} {s : State} (h : s.SeatedBut P) : (paceMinute s).SeatedBut P :=
  h.map (f := Showing.atMinute s.cal.m) rfl rfl (fun _ _ => ⟨rfl, rfl⟩) fun _ _ hst => hst

theorem countDown_seated {s : State} (h : s.SeatedBut noSpare) : (countDown s).SeatedBut noSpare := by
  have count : ∀ (l : List Hold) (id : Nat),
      holdSum ((l.map fun a => { a with remaining := a.remaining - 1 }).filter fun a => a.showing == id) =
        holdSum (l.filter fun a => a.showing == id) := fun l id => by
    rw [List.filter_map, holdSum, List.map_map]
    rfl
  refine ⟨h.showings, ?_, fun x hx => ?_, fun a ha => ?_⟩
  · simpa [countDown, Function.comp_def] using h.holds
  · exact (h.sums x hx).trans (count s.holds x.id).symm
  · obtain ⟨b, hb, rfl⟩ := List.mem_map.1 ha
    exact h.named b hb

theorem deliverMinute_seated {s : State} (h : s.SeatedBut noSpare) : (deliverMinute s).SeatedBut noSpare := by
  unfold deliverMinute
  dsimp only
  split
  · split
    · exact paceMinute_seated ((judgeAll_seated (h.chosen _)).same (noticeMinute_seats _ _))
    · exact paceMinute_seated (judgeAll_seated (State.SeatedBut.same (noticeMinute_seats _ _) (h.chosen _)))
  · exact paceMinute_seated ((judgeAll_seated h).same (noticeMinute_seats _ _))

theorem minuteWithExpiry_seated {s : State} (h : s.SeatedBut noSpare) : (minuteWithExpiry s).SeatedBut noSpare := by
  unfold minuteWithExpiry
  dsimp only
  split
  · split
    · exact deliverMinute_seated (expireHolds_seated _ (h.chosen _))
    · exact expireHolds_seated _ (deliverMinute_seated (h.chosen _))
  · exact deliverMinute_seated (expireHolds_seated _ h)

theorem calendarMinute_aside (s : State) : Aside s (calendarMinute s) := by
  have day : Aside s (dayStartTest s) := by
    unfold dayStartTest
    exact .ite ⟨rfl, rfl, rfl⟩ (.refl s)
  refine day.trans ?_
  unfold calendarMinute lobbyCrossing
  exact .ite (.refl _) (.ite (setHushWake_aside _ _ _) (.ite (setHushWake_aside _ _ _) (.refl _)))

theorem watchSecond_aside (s : State) : Aside s (watchSecond s) := by
  unfold watchSecond
  split
  · exact .refl s
  · exact .ite ⟨rfl, rfl, rfl⟩ ⟨rfl, rfl, rfl⟩

theorem secondInReset_aside (kind : ResetKind) (s : State) : Aside s (secondInReset kind s) := by
  cases kind with
  | powerOn => exact .refl s
  | pin =>
    unfold secondInReset secondInPinReset
    dsimp only
    split <;> exact ⟨rfl, rfl, rfl⟩

theorem secondEvent_seated {s : State} (h : s.SeatedBut noSpare) : (secondEvent s).SeatedBut noSpare := by
  unfold secondEvent
  split
  · exact h.same (secondInReset_aside _ s).seats
  · have counted : (countDown { s with cal := s.cal.tick.1 }).SeatedBut noSpare :=
      countDown_seated (h.frame (t := { s with cal := s.cal.tick.1 }) rfl rfl)
    dsimp only
    have panels : ∀ u : State, u.SeatedBut noSpare → State.SeatedBut noSpare { u with panels := u.panels.map Panel.second } :=
      fun _ k => k.frame rfl rfl
    refine State.SeatedBut.same (settle_quiet _).aside.seats (panels _ (State.SeatedBut.same (watchSecond_aside _).seats ?_))
    split
    · exact expireHolds_seated _ counted
    · exact expireHolds_seated _ (counted.raise _ _ _ _)
    · exact minuteWithExpiry_seated (counted.same (calendarMinute_aside _).seats)

/-! ### The requests -/

theorem hushFrom_aside (w : Nat) (wake : Bool) (s : State) : Aside s (hushFrom w wake s) := setHushWake_aside _ _ s

theorem setTime_seated (f : TimeFields) {s : State} (h : s.SeatedBut noSpare) : (setTime f s).2.SeatedBut noSpare := by
  unfold setTime
  split
  · exact h
  · split
    · exact State.SeatedBut.same (hushFrom_aside _ _ _).seats (h.frame rfl rfl)
    · dsimp only
      split
      · unfold forwardJump
        refine State.SeatedBut.same (hushFrom_aside _ _ _).seats ?_
        have delivered := deliverMinute_seated (h.frame (t := { s with cal := { s.cal.setInstant f with
          m := ((s.cal.m : Int) + s.cal.delta f).toNat
          d0 := businessBase ((s.cal.m : Int) + s.cal.delta f).toNat (s.cal.setInstant f).h0 } }) rfl rfl)
        split
        · exact delivered.frame rfl rfl
        · exact delivered
      · exact State.SeatedBut.same (hushFrom_aside _ _ _).seats (h.frame rfl rfl)

theorem boardLifecycle_seated (l : LifeSettings) {s : State} (h : s.SeatedBut noSpare) :
    (boardLifecycle l s).SeatedBut noSpare := by
  unfold boardLifecycle
  split
  · exact h
  · refine judgeAll_seated (h.map (f := movePurge s.life.linger l.linger) rfl rfl (fun x _ => ?_) fun x _ hst => ?_)
    · unfold movePurge
      split <;> exact ⟨rfl, rfl⟩
    · unfold movePurge
      split <;> exact hst

theorem recomputeBand_seated {P : Nat → Prop} (source : Nat → Source) {s : State} (id : Nat) (h : s.SeatedBut P) :
    (recomputeBand source s id).SeatedBut P := by
  unfold recomputeBand
  split
  · exact h
  · dsimp only
    split
    · exact h
    · exact State.SeatedBut.raise (h.modFields fun _ => by exact ⟨rfl, rfl, rfl⟩) _ _ _ _

theorem boardBands_seated (source : Nat → Source) (g : FigureSettings) {s : State} (h : s.SeatedBut noSpare) :
    (boardBands source g s).SeatedBut noSpare := by
  unfold boardBands
  dsimp only
  split
  · exact foldl_keeps (I := State.SeatedBut noSpare) (fun _ id k => recomputeBand_seated source id k) _ (h.frame rfl rfl)
  · exact h.frame rfl rfl

theorem joinBands_aside (first : Bool) (bands : List (Source × EventRecord)) (s : State) : Aside s (joinBands first bands s) := by
  obtain ⟨_, _, e⟩ := joinBands_rest first bands s
  rw [e]
  exact ⟨rfl, rfl, rfl⟩

theorem boardShowings_seated (l : LifeSettings) (g : FigureSettings) {s : State} (h : s.SeatedBut noSpare) :
    (boardShowings l g s).SeatedBut noSpare := by
  unfold boardShowings
  dsimp only
  split
  · split
    · have judged := boardLifecycle_seated l (h.frame (t := { s with choice := s.choice + 1 }) rfl rfl)
      have banded := boardBands_seated (s.bandSource l) g (judged.frame (t := { boardLifecycle l { s with choice := s.choice + 1 } with
        outbox := [] }) rfl rfl)
      exact State.SeatedBut.same (joinBands_aside _ _ _).seats (banded.frame rfl rfl)
    · have banded := boardBands_seated (s.bandSource l) g (h.frame (t := { s with choice := s.choice + 1, outbox := [] }) rfl rfl)
      exact State.SeatedBut.same (joinBands_aside _ _ _).seats (boardLifecycle_seated l (banded.frame rfl rfl))
  · exact boardBands_seated _ g (boardLifecycle_seated l h)

theorem boardCalendar_aside (f : BoardFields) (s : State) : Aside s (boardCalendar f s) := by
  unfold boardCalendar
  refine .ite ⟨rfl, rfl, rfl⟩ (Aside.trans ?_ (setHushWake_aside _ _ _))
  exact ⟨rfl, rfl, rfl⟩

theorem setBoard_seated (f : BoardFields) {s : State} (h : s.SeatedBut noSpare) : (setBoard f s).2.SeatedBut noSpare := by
  unfold setBoard
  split
  · exact h
  · have judged := boardShowings_seated (boardLife f s.life) (boardFigure f s.figure) (h.same (boardCalendar_aside f s).seats)
    dsimp only
    generalize boardShowings (boardLife f s.life) (boardFigure f s.figure) (boardCalendar f s) = u at judged ⊢
    exact judged.frame rfl rfl

theorem boardClear_seats (p : Port) (s : State) : SameSeats (emptyBoard s) (boardClear p s).2 := by
  unfold boardClear
  refine SameSeats.raise (SameSeats.trans ?_ (SameSeats.of_zones (judgeHushAll_only _))) _ _ _ _
  split
  · exact (hushFrom_aside _ _ _).seats
  · exact .refl _

/-- A record of a new id joins, with no seats held. -/
theorem State.SeatedBut.insert {s : State} (h : s.SeatedBut noSpare) {x : Showing} (hnew : ∀ y ∈ s.showings, y.id ≠ x.id)
    (hheld : x.held = 0) : State.SeatedBut noSpare { s with showings := insertKey Showing.id x s.showings } := by
  have none : s.heldBy x.id = 0 := by
    have empty : (s.holds.filter fun a => a.showing == x.id) = [] := List.filter_eq_nil_iff.2 fun a ha e => by
      obtain ⟨y, hy, hid, _⟩ := h.named a ha
      exact hnew y hy (hid.trans (by simpa using e))
    simp [State.heldBy, empty, holdSum]
  refine ⟨rising_insertKey Showing.id h.showings hnew, h.holds, fun y hy => ?_, fun a ha => ?_⟩
  · rcases (mem_insertKey Showing.id).1 hy with rfl | hy
    · exact hheld.trans none.symm
    · exact h.sums y hy
  · obtain ⟨y, hy, hid, hst⟩ := h.named a ha
    exact ⟨y, (mem_insertKey Showing.id).2 (.inr hy), hid, hst⟩

theorem changeSeats_seated {P : Nat → Prop} (g : Source) (id : Nat) {f : Showing → Showing}
    (keep : ∀ x, (f x).id = x.id ∧ (f x).held = x.held ∧ (f x).state = x.state) {s : State} (h : s.SeatedBut P) :
    (changeSeats g id f s).SeatedBut P := by
  cases hx : s.showing? id with
  | none => simpa only [changeSeats, hx] using h
  | some x =>
    obtain ⟨hs, hh⟩ := changeSeats_seats g f hx
    obtain ⟨kid, kheld, kstate⟩ := keep x
    obtain ⟨hxm, hxid⟩ := findKey_mem Showing.id hx
    refine h.change hx hs (kid.trans hxid) kstate ?_ (fun i _ => State.heldBy_congr hh i) (by rw [hh]; exact h.holds)
      fun a ha => .inl ⟨hh ▸ ha, fun hP => hP⟩
    rw [State.heldBy_congr hh]
    exact kheld.trans (hxid ▸ h.sums x hxm)

/-- A PUBLISH that is taken names no live showing (R48 check 5). -/
theorem publishRefusal_none_new {s : State} {f : PublishFields} (h : s.publishRefusal f = none) :
    ∀ y ∈ s.showings, y.id ≠ f.id.toNat := by
  unfold State.publishRefusal at h
  dsimp only at h
  iterate 3 (split at h; · cases h)
  split at h
  · cases h
  next fresh => exact (hasKey_eq_false Showing.id).1 (by simpa using fresh)

theorem publish_seated (f : PublishFields) {s : State} (h : s.SeatedBut noSpare) : (publish f s).2.SeatedBut noSpare := by
  unfold publish
  split
  · exact h
  next taken =>
    have joined := h.insert (x := s.publishedShowing f) (publishRefusal_none_new taken) rfl
    have announced : (raise (.showing (s.publishedShowing f).id) .showingState (s.publishedShowing f).id
        (s.publishedShowing f).state.code (changeSeats (.seats (s.publishedShowing f).id) (s.publishedShowing f).id (fun y => y)
          { s with showings := insertKey Showing.id (s.publishedShowing f) s.showings })).SeatedBut noSpare :=
      (changeSeats_seated _ _ (fun _ => by exact ⟨rfl, rfl, rfl⟩) joined).raise _ _ _ _
    refine judgeShowing_seated lifeSteps _ ?_
    split
    · exact announced
    · exact announced.same (noticeForDelay_seats _ _ _)

theorem move_seated (f : MoveFields) {s : State} (h : s.SeatedBut noSpare) : (move f s).2.SeatedBut noSpare := by
  unfold move
  split
  · exact h
  · exact h
  next x _ _ =>
    have moved : (s.modShowing x.id fun y => s.movedShowing f y).SeatedBut noSpare := h.modFields fun _ => by exact ⟨rfl, rfl, rfl⟩
    refine judgeShowing_seated lifeSteps _ (State.SeatedBut.raise ?_ _ _ _ _)
    split
    · split
      · exact moved
      · exact recomputeFast_seated _ moved
    · exact seatChange_seated .capacity _ _ (fun _ => by exact ⟨rfl, rfl, rfl⟩) moved

theorem delayShowing_seated (id : Nat) (d : Byte) {s : State} (h : s.SeatedBut noSpare) :
    (delayShowing id d s).2.SeatedBut noSpare := by
  unfold delayShowing
  split
  · exact h
  · split
    · exact h
    · iterate 2 (split; · exact h)
      have delayed : (recomputeFast id (s.modShowing id fun y => { y with delay := delayOf d })).SeatedBut noSpare :=
        recomputeFast_seated id (h.modFields fun _ => by exact ⟨rfl, rfl, rfl⟩)
      exact judgeShowing_seated lifeSteps id (State.SeatedBut.same (noticeForDelay_seats _ _ _) (delayed.raise _ _ _ _))

theorem setCapacity_seated (id c : Nat) {s : State} (h : s.SeatedBut noSpare) : (setCapacity id c s).2.SeatedBut noSpare := by
  unfold setCapacity
  split
  · exact h
  · split
    · exact h
    · split
      · exact h
      · exact State.SeatedBut.raise (seatChange_seated .capacity id _ (fun _ => by exact ⟨rfl, rfl, rfl⟩) h) _ _ _ _

/-- CANCEL sets the showing aside, and its holds are released at the same arrival (R45, R74). -/
theorem cancel_seated (id : Nat) {s : State} (h : s.SeatedBut noSpare) : (cancel id s).2.SeatedBut noSpare := by
  unfold cancel
  split
  · exact h
  · split
    · exact h
    · split
      · exact h
      · have cancelled : (transitionTo id .cancelled
            (s.modShowing id fun y => { y with purge := some (purgeAt (s.cal.m + s.life.linger)) })).SeatedBut (· = id) :=
          enterState_seated (P := noSpare) (h.modFields fun _ => by exact ⟨rfl, rfl, rfl⟩) (fun _ _ _ _ => .inl rfl) fun _ _ hP => hP.elim
        dsimp only
        rw [inAnyOrder_rest]
        refine State.SeatedBut.same (s := retireDelayed (.showing id) id (releaseHolds (.seats id) endCancelled .cancelRelease id
          { transitionTo id .cancelled (s.modShowing id fun y => { y with purge := some (purgeAt (s.cal.m + s.life.linger)) }) with
            outbox := [] })) ⟨rfl, rfl⟩ ?_
        exact State.SeatedBut.same (retireDelayed_seats _ _ _) (releaseHolds_seated _ _ _ (cancelled.frame rfl rfl))

theorem sell_seated (id n : Nat) {s : State} (h : s.SeatedBut noSpare) : (sell id n s).2.SeatedBut noSpare := by
  unfold sell
  split
  · exact h
  · split
    · exact h
    · iterate 2 (split; · exact h)
      exact seatChange_seated .sell id _ (fun _ => by exact ⟨rfl, rfl, rfl⟩) h

theorem refund_seated (id n : Nat) {s : State} (h : s.SeatedBut noSpare) : (refund id n s).2.SeatedBut noSpare := by
  unfold refund
  split
  · exact h
  · split
    · exact h
    · exact seatChange_seated .refund id _ (fun _ => by exact ⟨rfl, rfl, rfl⟩) h

theorem snapshot_seated (id v : Nat) {s : State} (h : s.SeatedBut noSpare) : (snapshot id v s).2.SeatedBut noSpare := by
  unfold snapshot
  split
  · exact h
  · split
    · exact h
    · exact seatChange_seated .snapshot id _ (fun _ => by exact ⟨rfl, rfl, rfl⟩) h

/-- A HOLD that is taken names a live showing whose state takes holds, under a new tag (R68). -/
theorem holdRefusal_none {s : State} {tag id n : Nat} (h : s.holdRefusal tag id n = none) :
    ∃ x, s.showing? id = some x ∧ x.state.holds = true ∧ ∀ a ∈ s.holds, a.tag ≠ tag := by
  unfold State.holdRefusal at h
  split at h
  · cases h
  · split at h
    · cases h
    next x hx =>
      split at h
      · cases h
      · split at h
        · cases h
        next hst =>
          split at h
          · cases h
          next htag => exact ⟨x, hx, by simpa using hst, (hasKey_eq_false Hold.tag).1 (by simpa using htag)⟩

theorem holdSum_insertKey (a : Hold) (l : List Hold) (r : Hold → Bool) :
    holdSum ((insertKey Hold.tag a l).filter r) = (if r a then a.count else 0) + holdSum (l.filter r) := by
  induction l with
  | nil => by_cases h : r a = true <;> simp [insertKey, holdSum, h]
  | cons b l ih =>
    simp only [insertKey]
    split
    · by_cases h : r a = true <;> simp [holdSum, h]
    · by_cases h : r b = true
      · simp_all [holdSum]
        omega
      · simp_all [holdSum]

theorem holdSeats_seated (tag id n life : Nat) {s : State} (h : s.SeatedBut noSpare) :
    (holdSeats tag id n life s).2.SeatedBut noSpare := by
  unfold holdSeats
  split
  · exact h
  next taken =>
    obtain ⟨x, hx, hst, htag⟩ := holdRefusal_none taken
    obtain ⟨hxm, hxid⟩ := findKey_mem Showing.id hx
    dsimp only
    generalize hg : min n ((s.showing? id).elim 0 Showing.left) = granted
    let a : Hold := { tag, showing := id, count := granted, remaining := clamp 30 1800 life }
    obtain ⟨hs, hh⟩ := seatChange_seats .hold granted (fun y => { y with held := y.held + granted })
      (s := { s with holds := insertKey Hold.tag a s.holds }) hx
    have sum : ∀ i, (seatChange .hold id granted (fun y => { y with held := y.held + granted })
        { s with holds := insertKey Hold.tag a s.holds }).heldBy i = (if id = i then granted else 0) + s.heldBy i := fun i => by
      unfold State.heldBy
      rw [hh]
      dsimp only
      rw [holdSum_insertKey]
      simp [a]
    refine h.change hx hs hxid rfl ?_ (fun i hi => ?_) (by rw [hh]; exact rising_insertKey Hold.tag h.holds htag) fun b hb => ?_
    · rw [sum, Showing.inLine_held, if_pos rfl]
      have := h.sums x hxm
      rw [hxid] at this
      dsimp only
      omega
    · rw [sum, if_neg (Ne.symm hi), Nat.zero_add]
    · rw [hh] at hb
      rcases (mem_insertKey Hold.tag).1 hb with rfl | hb
      · exact .inr ⟨rfl, hst⟩
      · exact .inl ⟨hb, fun hP => hP⟩

/-- A hold ended by CONFIRM or RELEASE leaves the table and H together (R71, R73). -/
theorem endOne_seated (kind : JournalKind) {tag n reason : Nat} {a : Hold} {f : Showing → Showing}
    (keep : ∀ x, (f x).id = x.id ∧ (f x).held = x.held - a.count ∧ (f x).state = x.state) {s : State} (h : s.SeatedBut noSpare)
    (ha : s.hold? tag = some a) : (seatChange kind a.showing n f (dropHold a reason s)).SeatedBut noSpare := by
  obtain ⟨ham, hatag⟩ := findKey_mem Hold.tag ha
  obtain ⟨x, hxm, hxid, _⟩ := h.named a ham
  have hx : s.showing? a.showing = some x := by rw [← hxid]; exact findKey_of_mem Showing.id h.showings hxm
  obtain ⟨hs, hh⟩ := seatChange_seats kind n f (s := dropHold a reason s) hx
  have left : (seatChange kind a.showing n f (dropHold a reason s)).holds = s.holds.filter fun b => !(b.tag == a.tag) := hh
  have only : s.holds.filter (fun b => b.tag == a.tag) = [a] := by
    have hnd : s.holds.Nodup := List.Nodup.of_map Hold.tag (h.holds.imp fun lt => Nat.ne_of_lt lt)
    have same : ∀ b ∈ s.holds, (b.tag == a.tag) = (b == a) := fun b hb => by
      rw [Bool.eq_iff_iff, beq_iff_eq, beq_iff_eq]
      refine ⟨fun e => ?_, fun e => by rw [e]⟩
      have hfb := findKey_of_mem Hold.tag h.holds hb
      rw [e] at hfb
      exact Option.some.inj (hfb.symm.trans (findKey_of_mem Hold.tag h.holds ham))
    rw [List.filter_congr same, List.filter_beq, List.count_eq_one_of_mem hnd ham]
    rfl
  obtain ⟨kid, kheld, kstate⟩ := keep x
  refine h.change hx hs (kid.trans hxid) kstate ?_ (fun i hi => ?_) (by rw [left]; exact rising_filter Hold.tag _ h.holds)
    fun b hb => .inl ⟨(List.mem_filter.1 (left ▸ hb)).1, fun hP => hP⟩
  · have split := holdSum_split (fun b => b.tag == a.tag && b.showing == a.showing) (fun b => b.showing == a.showing) s.holds
      fun b hb => (Bool.and_eq_true_iff.1 hb).2
    have one : (s.holds.filter fun b => b.tag == a.tag && b.showing == a.showing) = [a] := by
      rw [show (fun b : Hold => b.tag == a.tag && b.showing == a.showing) = (fun b => (b.showing == a.showing) && (b.tag == a.tag)) from
        funext fun b => Bool.and_comm _ _, ← List.filter_filter, only]
      simp
    have rest : ((s.holds.filter fun b => !(b.tag == a.tag && b.showing == a.showing)).filter fun b => b.showing == a.showing) =
        (s.holds.filter fun b => !(b.tag == a.tag)).filter fun b => b.showing == a.showing := by
      simp only [List.filter_filter]
      refine List.filter_congr fun b _ => ?_
      cases b.tag == a.tag <;> cases b.showing == a.showing <;> rfl
    have sum : x.held = holdSum (s.holds.filter fun b => b.showing == a.showing) := hxid ▸ h.sums x hxm
    rw [one, rest] at split
    rw [Showing.inLine_held, kheld]
    unfold State.heldBy
    rw [left]
    simp only [holdSum, List.map_cons, List.map_nil, List.sum_cons, List.sum_nil] at split sum ⊢
    omega
  · unfold State.heldBy
    rw [left, List.filter_filter]
    congr 1
    refine List.filter_congr fun b hb => ?_
    by_cases e : b.tag = a.tag
    · have hba : b ∈ s.holds.filter fun b => b.tag == a.tag := List.mem_filter.2 ⟨hb, by simpa using e⟩
      rw [only] at hba
      obtain rfl := List.mem_singleton.1 hba
      simp [Ne.symm hi]
    · simp [e]

theorem confirm_seated (tag n : Nat) {s : State} (h : s.SeatedBut noSpare) : (confirm tag n s).2.SeatedBut noSpare := by
  unfold confirm
  split
  · exact h
  · split
    · exact h
    next a ha => exact endOne_seated .confirm (fun _ => by exact ⟨rfl, rfl, rfl⟩) h ha

theorem releaseHold_seated (tag : Nat) {s : State} (h : s.SeatedBut noSpare) : (releaseHold tag s).2.SeatedBut noSpare := by
  unfold releaseHold
  split
  · exact h
  · split
    · exact h
    next a ha => exact endOne_seated .release (fun _ => by exact ⟨rfl, rfl, rfl⟩) h ha

/-! ### The step -/

theorem request_seated (t : Txn) (n kind : Nat) (roles : List Role) {body : State → Answer × State}
    (h : ∀ u, u.SeatedBut noSpare → (body u).2.SeatedBut noSpare) {s : State} (hs : s.SeatedBut noSpare) :
    (request t n kind roles body s).SeatedBut noSpare :=
  request_carries (I := State.SeatedBut noSpare) (fun _ _ q k => k.same q.aside.seats) h hs

theorem exec_seated {c : Instr} {s t : State} (h : s.SeatedBut noSpare) (ht : exec c s = .next t) : t.SeatedBut noSpare := by
  by_cases ha : Instr.isAside c = true
  · obtain ⟨u, hu, aside⟩ := exec_aside ha s
    obtain rfl := Host.Outcome.next.inj (hu.symm.trans ht)
    exact h.same aside.seats
  cases c <;> obtain rfl := Host.Outcome.next.inj ht
  case powerOnReset => exact (seatedBut_none _).2 (.of_empty rfl rfl)
  case pinReset => exact (seatedBut_none _).2 (.of_empty rfl rfl)
  case secondEvent => exact secondEvent_seated h
  case dwellExpiry => split; exacts [secondEvent_seated h, h]
  case holdExpiry => split; exacts [secondEvent_seated h, h]
  case salesStale => split; exacts [secondEvent_seated h, h]
  case minuteEvent => split; exacts [secondEvent_seated h, h]
  case midnightEvent => split; exacts [secondEvent_seated h, h]
  case flashTick => exact h.same (by split <;> exact ⟨rfl, rfl⟩)
  case setTime f => exact request_seated _ _ _ _ (fun u k => setTime_seated f k) h
  case setBoard f => exact request_seated _ _ _ _ (fun u k => setBoard_seated f k) h
  case boardClear t =>
    exact request_seated _ _ _ _ (fun u _ => ((seatedBut_none _).2 (.of_empty rfl rfl)).same (boardClear_seats t.port u)) h
  case publish f => exact request_seated _ _ _ _ (fun u k => publish_seated f k) h
  case move f => exact request_seated _ _ _ _ (fun u k => move_seated f k) h
  case delay d => exact request_seated _ _ _ _ (fun u k => delayShowing_seated _ d k) h
  case setCapacity => exact request_seated _ _ _ _ (fun u k => setCapacity_seated _ _ k) h
  case cancel => exact request_seated _ _ _ _ (fun u k => cancel_seated _ k) h
  case sell => exact request_seated _ _ _ _ (fun u k => sell_seated _ _ k) h
  case refund => exact request_seated _ _ _ _ (fun u k => refund_seated _ _ k) h
  case snapshot => exact request_seated _ _ _ _ (fun u k => snapshot_seated _ _ k) h
  case hold => exact request_seated _ _ _ _ (fun u k => holdSeats_seated _ _ _ _ k) h
  case confirm => exact request_seated _ _ _ _ (fun u k => confirm_seated _ _ k) h
  case release => exact request_seated _ _ _ _ (fun u k => releaseHold_seated _ k) h
  case postNotice f => exact request_seated _ _ _ _ (fun u k => k.same (postNotice_seats f u)) h
  case withdrawNotice => exact request_seated _ _ _ _ (fun u k => k.same (withdrawNotice_seats _ u)) h
  all_goals exact absurd rfl ha

/-- Settles O58: every command keeps the invariant (`exec_seated`); the release of holds closes the gap that a transition into CLOSED or
CANCELLED opens. -/
theorem everyStepKeepsHeldTheSumOfHolds : Obligations.EveryStepKeepsHeldTheSumOfHolds := by
  unfold Obligations.EveryStepKeepsHeldTheSumOfHolds
  intro s t _ h ht
  exact (seatedBut_none t).1 (step_keeps (I := State.SeatedBut noSpare) (fun _ _ k => k.frame rfl rfl)
    (fun _ _ k => k.frame rfl rfl) (fun c _ _ k hc => exec_seated k hc) ((seatedBut_none s).2 h) ht)

end Sys2Proof.Machine
end

section
/-! PROOFS that the activation list holds each ACTIVE notice once and that every takeover entry is the newest ACTIVE ALERT in scope (R101,
R114). Between a change of the table and the judging of the takeovers only the first half holds: Listed. -/

namespace Sys2Proof.Machine

/-! ### The table and the activation list -/

/-- The activation list holds each ACTIVE notice once, and ids rise in the table. -/
structure State.Listed (s : State) : Prop where
  table : Rising (s.notices.table.map Notice.id)
  once : s.notices.activation.Nodup
  active : ∀ i, i ∈ s.notices.activation ↔ ∃ n ∈ s.notices.table, n.id = i ∧ n.state = .active

theorem State.Noticed.listed {s : State} (h : s.Noticed) : s.Listed := ⟨h.table, h.once, h.active⟩

theorem State.Listed.same {s t : State} (h : s.Listed) (e : t.notices = s.notices) : t.Listed :=
  ⟨by rw [e]; exact h.table, by rw [e]; exact h.once, by rw [e]; exact h.active⟩

/-- Whether a notice is an ALERT in whose scope a panel stands. -/
def State.alertOver (s : State) (p i : Nat) : Bool := (s.notice? i).elim false fun n => n.cls == .alert && n.covers p

theorem State.takeoverDue_eq (s : State) (p : Nat) : s.takeoverDue p = s.notices.activation.reverse.find? (s.alertOver p) := by
  unfold State.takeoverDue
  congr 1
  funext i
  unfold State.alertOver
  cases s.notice? i <;> rfl

/-- What takes a panel over is read from the notices. -/
theorem State.takeoverDue_congr {s t : State} (ha : t.notices.activation = s.notices.activation)
    (hn : ∀ i ∈ s.notices.activation, (t.notice? i).map (fun n => (n.cls, n.scope)) = (s.notice? i).map fun n => (n.cls, n.scope))
    (p : Nat) : t.takeoverDue p = s.takeoverDue p := by
  rw [State.takeoverDue_eq, State.takeoverDue_eq, ha]
  refine List.find?_congr fun i hi => ?_
  have := hn i (List.mem_reverse.1 hi)
  unfold State.alertOver
  cases ht : t.notice? i <;> cases hs : s.notice? i <;> simp_all [Notice.covers]

theorem State.takeoverDue_same {s t : State} (e : t.notices = s.notices) (p : Nat) : t.takeoverDue p = s.takeoverDue p :=
  takeoverDue_congr (by rw [e]) (fun i _ => by unfold State.notice?; rw [e]) p

theorem State.Noticed.same {s t : State} (h : s.Noticed) (e : t.notices = s.notices) : t.Noticed where
  table := (h.listed.same e).table
  once := (h.listed.same e).once
  active := (h.listed.same e).active
  takeover := fun p hp => by
    rw [State.takeoverDue_same e, ← h.takeover p hp]
    unfold State.takeover
    rw [e]

theorem slot_panelNumbers {α : Type} (d : α) (f : Nat → α) {p : Nat} (hp : p ∈ panelNumbers) : slot d (panelNumbers.map f) p = f p := by
  simp only [panelNumbers, List.mem_cons, List.not_mem_nil, or_false] at hp
  rcases hp with rfl | rfl | rfl | rfl | rfl | rfl | rfl | rfl | rfl | rfl | rfl | rfl <;> rfl

/-- The notices once the takeover table has been judged. -/
theorem judgeTakeover_notices (s : State) :
    (judgeTakeover s).notices = { s.notices with takeover := panelNumbers.map s.takeoverDue } := by
  obtain ⟨_, _, _, e⟩ := judgeTakeover_only s
  rw [e]

theorem judgeTakeover_noticed {s : State} (h : s.Listed) : (judgeTakeover s).Noticed := by
  have e := judgeTakeover_notices s
  refine ⟨by rw [e]; exact h.table, by rw [e]; exact h.once, by rw [e]; exact h.active, fun p hp => ?_⟩
  have due : (judgeTakeover s).takeoverDue p = s.takeoverDue p :=
    State.takeoverDue_congr (by rw [e]) (fun i _ => by unfold State.notice?; rw [e]) p
  rw [due]
  unfold State.takeover
  rw [e]
  exact slot_panelNumbers none s.takeoverDue hp

theorem State.Listed.free {s : State} (h : s.Listed) (ids : List Nat) : (freeNotices ids s).Listed where
  table := rising_filter Notice.id _ h.table
  once := h.once.filter _
  active := fun i => by
    simp only [freeNotices, List.mem_filter, h.active i]
    constructor
    · rintro ⟨⟨n, hn, hid, hst⟩, hi⟩
      exact ⟨n, ⟨hn, by rw [hid]; exact hi⟩, hid, hst⟩
    · rintro ⟨n, ⟨hn, hi⟩, hid, hst⟩
      exact ⟨⟨n, hn, hid, hst⟩, by rw [← hid]; exact hi⟩

theorem State.Listed.add {s : State} (h : s.Listed) {n : Notice} (hnew : ∀ x ∈ s.notices.table, x.id ≠ n.id) :
    (addNotice n s).Listed := by
  have fresh : n.id ∉ s.notices.activation := fun hi => by
    obtain ⟨x, hx, hid, _⟩ := (h.active n.id).1 hi
    exact hnew x hx hid
  have mem : ∀ i, (i ∈ s.notices.activation ∨ (i = n.id ∧ n.state = .active)) ↔
      ∃ x ∈ insertKey Notice.id n s.notices.table, x.id = i ∧ x.state = .active := fun i => by
    rw [h.active i]
    constructor
    · rintro (⟨x, hx, hid⟩ | ⟨rfl, hst⟩)
      · exact ⟨x, (mem_insertKey Notice.id).2 (.inr hx), hid⟩
      · exact ⟨n, (mem_insertKey Notice.id).2 (.inl rfl), rfl, hst⟩
    · rintro ⟨x, hx, rfl, hst⟩
      rcases (mem_insertKey Notice.id).1 hx with rfl | hx
      · exact .inr ⟨rfl, hst⟩
      · exact .inl ⟨x, hx, rfl, hst⟩
  refine ⟨rising_insertKey Notice.id h.table hnew, ?_, fun i => ?_⟩
  · cases hst : n.state
    · simpa [addNotice, hst] using h.once
    · simp only [addNotice, hst]
      exact List.nodup_append.2 ⟨h.once, by simp, fun a ha b hb => by
        obtain rfl := List.mem_singleton.1 hb
        exact fun e => fresh (e ▸ ha)⟩
  · refine Iff.trans ?_ (mem i)
    cases hst : n.state <;> simp [addNotice, hst]

/-- Records that keep id, state, class and scope leave the invariant. -/
theorem State.Noticed.map {s t : State} (h : s.Noticed) {f : Notice → Notice}
    (e : t.notices = { s.notices with table := s.notices.table.map f })
    (keep : ∀ n, (f n).id = n.id ∧ (f n).state = n.state ∧ (f n).cls = n.cls ∧ (f n).scope = n.scope) : t.Noticed := by
  have find : ∀ i, t.notice? i = (s.notice? i).map f := fun i => by
    unfold State.notice? findKey
    rw [e, List.find?_map]
    simp [(keep _).1]
  refine ⟨?_, by rw [e]; exact h.once, fun i => ?_, fun p hp => ?_⟩
  · rw [e]
    simpa [Function.comp_def, (keep _).1] using h.table
  · rw [e]
    refine (h.active i).trans ?_
    simp only [List.mem_map, exists_exists_and_eq_and, (keep _).1, (keep _).2.1]
  · have due : t.takeoverDue p = s.takeoverDue p := State.takeoverDue_congr (by rw [e]) (fun i _ => by
      rw [find i, Option.map_map]
      simp [Function.comp_def, (keep _).2.2.1, (keep _).2.2.2]) p
    rw [due, ← h.takeover p hp]
    unfold State.takeover
    rw [e]

/-! ### The Notice Unit's work -/

theorem raises_notices {α : Type} (g : α → Source) (k : EventKind) (n : α → Nat) (d : Nat) (l : List α) (s : State) :
    (l.foldl (fun u x => raise (g x) k (n x) d u) s).notices = s.notices :=
  foldl_rel (fun a b : State => b.notices = a.notices) (fun _ => rfl) (fun h k => k.trans h) _ (fun _ _ => by rfl) l s

theorem retireNotices_noticed (g : Source) (ids : List Nat) {s : State} (h : s.Noticed) : (retireNotices g ids s).Noticed := by
  unfold retireNotices
  split
  · exact h
  · have told := raises_notices (fun _ => g) .noticeState (fun id => id) noticeRetired (anyOrder s.choice Source.notice ids)
      { s with choice := s.choice + ids.length }
    exact judgeTakeover_noticed (State.Listed.free (h.listed.same told) ids)

theorem retireDelayed_noticed (g : Source) (id : Nat) {s : State} (h : s.Noticed) : (retireDelayed g id s).Noticed := by
  unfold retireDelayed
  split
  · exact retireNotices_noticed g _ h
  · exact h

theorem freeNoticeId_new {s : State} {i : Nat} (h : s.freeNoticeId = some i) : ∀ n ∈ s.notices.table, n.id ≠ i := by
  unfold State.freeNoticeId at h
  have := List.find?_some h
  exact (hasKey_eq_false Notice.id).1 (by simpa using this)

/-- A notice that is no ALERT takes no panel over. -/
theorem addNotice_noticed {s : State} (h : s.Noticed) {n : Notice} (hnew : ∀ x ∈ s.notices.table, x.id ≠ n.id)
    (hcls : n.cls ≠ .alert) : (addNotice n s).Noticed := by
  have listed := h.listed.add hnew
  refine ⟨listed.table, listed.once, listed.active, fun p hp => (h.takeover p hp).trans ?_⟩
  have other : ∀ i ∈ s.notices.activation, (addNotice n s).notice? i = s.notice? i := fun i hi => by
    obtain ⟨x, hx, hid, _⟩ := (h.active i).1 hi
    exact findKey_insertKey_other Notice.id n s.notices.table i fun e => hnew x hx (hid.trans e)
  have same : s.notice? n.id = none := (findKey_eq_none Notice.id).2 hnew
  have here : (addNotice n s).notice? n.id = some n := findKey_insertKey_same Notice.id n s.notices.table hnew
  have rest : s.takeoverDue p = s.notices.activation.reverse.find? ((addNotice n s).alertOver p) := by
    rw [State.takeoverDue_eq]
    refine List.find?_congr fun i hi => ?_
    unfold State.alertOver
    rw [other i (List.mem_reverse.1 hi)]
  have last : (addNotice n s).alertOver p n.id = false := by simp [State.alertOver, here, hcls]
  rw [rest, State.takeoverDue_eq]
  cases hst : n.state
  · have list : (addNotice n s).notices.activation = s.notices.activation := by simp only [addNotice, hst]
    rw [list]
  · have list : (addNotice n s).notices.activation = s.notices.activation ++ [n.id] := by simp only [addNotice, hst]
    rw [list, List.reverse_append, List.reverse_singleton, List.singleton_append, List.find?_cons, last]

theorem noticeForDelay_noticed (id delay : Nat) {s : State} (h : s.Noticed) : (noticeForDelay id delay s).1.Noticed := by
  unfold noticeForDelay
  split
  · exact retireDelayed_noticed _ id h
  · split
    next n _ =>
      refine h.map (f := fun x => if x.id = n.id then { x with content := .system 1 delay } else x) rfl fun x => ?_
      split <;> exact ⟨rfl, rfl, rfl, rfl⟩
    · unfold createDelayed
      split
      next i hi =>
        split
        · exact (addNotice_noticed h (n := delayedRecord s i id delay) (freeNoticeId_new hi) nofun).same rfl
        · exact h
      · exact h

theorem activationDue_pending {m : Nat} {n : Notice} (h : n.activationDue m = true) : n.state = .pending := by
  unfold Notice.activationDue at h
  simpa using (Bool.and_eq_true_iff.1 h).1

/-- The notices that a minute event makes ACTIVE join the list once each (R107). -/
theorem State.Listed.activate {s t : State} (h : s.Listed) (m second : Nat)
    (ht : t.notices.table = s.notices.table.map fun n => if n.activationDue m then n.activate m second else n)
    (ha : t.notices.activation = s.notices.activation ++ (s.notices.table.filter (Notice.activationDue m)).map Notice.id) :
    t.Listed := by
  have distinct : ∀ x ∈ s.notices.table, ∀ y ∈ s.notices.table, x.id = y.id → x = y := fun x hx y hy e => by
    have fx := findKey_of_mem Notice.id h.table hx
    rw [e, findKey_of_mem Notice.id h.table hy] at fx
    exact (Option.some.inj fx).symm
  have ids : (fun n : Notice => if n.activationDue m then n.activate m second else n) = fun n => _ := rfl
  refine ⟨?_, ?_, fun i => ?_⟩
  · rw [ht, List.map_map]
    refine (congrArg Rising (List.map_congr_left fun n _ => ?_)).mpr h.table
    rw [Function.comp_apply]
    split <;> rfl
  · rw [ha]
    refine List.nodup_append.2 ⟨h.once, ?_, fun a hact b hb e => ?_⟩
    · exact (rising_filter Notice.id _ h.table).imp fun lt => Nat.ne_of_lt lt
    · obtain ⟨x, hx, rfl⟩ := List.mem_map.1 hb
      obtain ⟨y, hy, hid, hst⟩ := (h.active a).1 hact
      obtain ⟨hxm, hdue⟩ := List.mem_filter.1 hx
      obtain rfl := distinct y hy x hxm (hid.trans e)
      rw [activationDue_pending hdue] at hst
      cases hst
  · rw [ha, ht, List.mem_append, h.active i]
    simp only [List.mem_map, List.mem_filter]
    constructor
    · rintro (⟨n, hn, hid, hst⟩ | ⟨n, ⟨hn, hdue⟩, hid⟩)
      · have : ¬ n.activationDue m = true := fun hd => by rw [activationDue_pending hd] at hst; cases hst
        exact ⟨n, ⟨n, hn, by rw [if_neg this]⟩, hid, hst⟩
      · exact ⟨n.activate m second, ⟨n, hn, by rw [if_pos hdue]⟩, hid, rfl⟩
    · rintro ⟨_, ⟨n, hn, rfl⟩, hid, hst⟩
      by_cases hdue : n.activationDue m = true
      · rw [if_pos hdue] at hid
        exact .inr ⟨n, ⟨hn, hdue⟩, hid⟩
      · rw [if_neg hdue] at hid hst
        exact .inl ⟨n, hn, hid, hst⟩

theorem noticeMinute_noticed (source : Notice → Source) {s : State} (h : s.Noticed) : (noticeMinute source s).Noticed := by
  unfold noticeMinute
  dsimp only
  have activated : State.Listed { s with notices := { s.notices with
      table := s.notices.table.map fun n => if n.activationDue s.cal.m then n.activate s.cal.m s.cal.second else n
      activation := s.notices.activation ++ (s.notices.table.filter (Notice.activationDue s.cal.m)).map Notice.id } } :=
    h.listed.activate s.cal.m s.cal.second rfl rfl
  refine judgeTakeover_noticed (State.Listed.free (judgeTakeover_noticed (activated.same ?_)).listed _)
  exact (raises_notices source .noticeState Notice.id noticeExpired _ _).trans
    (raises_notices source .noticeState Notice.id noticeActive _ _)

theorem postRefusal_none_new {s : State} {f : NoticeFields} (h : s.postRefusal f = none) :
    ∀ n ∈ s.notices.table, n.id ≠ f.id.toNat := by
  unfold State.postRefusal at h
  iterate 3 (split at h; · cases h)
  split at h
  · cases h
  next fresh => exact (hasKey_eq_false Notice.id).1 (by simpa using fresh)

theorem postNotice_noticed (f : NoticeFields) {s : State} (h : s.Noticed) : (postNotice f s).2.Noticed := by
  unfold postNotice
  split
  · exact h
  next taken =>
    have hnew := postRefusal_none_new taken
    refine judgeTakeover_noticed (State.Listed.same (s := addNotice (s.postedNotice f) _) (State.Listed.add ?_ ?_) rfl)
    · split
      · exact (h.listed.free _).same rfl
      · exact h.listed
    · split
      · exact fun n hn => hnew n (List.mem_filter.1 hn).1
      · exact hnew

theorem withdrawNotice_noticed (id : Nat) {s : State} (h : s.Noticed) : (withdrawNotice id s).2.Noticed := by
  unfold withdrawNotice
  iterate 2 (split; · exact h)
  have told : (raise (.notice id) .noticeState id noticeWithdrawn s).Listed := h.listed.same rfl
  exact judgeTakeover_noticed (told.free [id])

theorem Notice.tick_kept (n : Notice) :
    n.tick.id = n.id ∧ n.tick.state = n.state ∧ n.tick.cls = n.cls ∧ n.tick.scope = n.scope := by
  unfold Notice.tick
  split
  · split <;> exact ⟨rfl, rfl, rfl, rfl⟩
  · exact ⟨rfl, rfl, rfl, rfl⟩
  · exact ⟨rfl, rfl, rfl, rfl⟩

/-! ### The Seat Accounting Unit leaves the notices -/

theorem foldl_notices {α : Type} {f : State → α → State} (h : ∀ u x, (f u x).notices = u.notices) (l : List α) (s : State) :
    (l.foldl f s).notices = s.notices :=
  foldl_rel (fun a b : State => b.notices = a.notices) (fun _ => rfl) (fun h k => k.trans h) f h l s

theorem changeSeats_notices (g : Source) (id : Nat) (f : Showing → Showing) (s : State) :
    (changeSeats g id f s).notices = s.notices := by
  unfold changeSeats
  split
  · rfl
  · dsimp only
    split <;> split <;> rfl

theorem seatChange_notices (kind : JournalKind) (id n : Nat) (f : Showing → Showing) (s : State) :
    (seatChange kind id n f s).notices = s.notices := by
  unfold seatChange journalShowing
  split
  · exact changeSeats_notices _ id f s
  · exact changeSeats_notices _ id f s

theorem endHolds_notices (g : Source) (reason : Nat) (kind : JournalKind) (id : Nat) (ended : List Hold) (f : Showing → Showing)
    (s : State) : (endHolds g reason kind id ended f s).notices = s.notices := by
  unfold endHolds
  split
  · rfl
  · dsimp only
    rw [changeSeats_notices, foldl_notices (fun _ _ => by rfl), foldl_notices (fun _ _ => by rfl)]

theorem expireHolds_notices (source : Nat → Source) (s : State) : (expireHolds source s).notices = s.notices := by
  unfold expireHolds
  exact foldl_notices (fun u id => endHolds_notices _ _ _ _ _ _ u) _ s

/-! ### The lifecycle -/

theorem transitionTo_noticed (id : Nat) (st : ShowState) {s : State} (h : s.Noticed) : (transitionTo id st s).Noticed := by
  have entered : ∀ (st : ShowState) {u : State}, u.Noticed → (enterState id st u).Noticed := fun st u k => k.same rfl
  unfold transitionTo
  cases st with
  | closed => exact State.Noticed.same (entered .closed h) (endHolds_notices _ _ _ _ _ _ _)
  | ended => exact retireNotices_noticed _ _ (entered .ended (h.same rfl))
  | started => exact retireDelayed_noticed _ _ (entered .started h)
  | planned => exact entered .planned h
  | onSale => exact entered .onSale h
  | seating => exact entered .seating h
  | cancelled => exact entered .cancelled h

theorem judgeShowing_noticed (n id : Nat) {s : State} (h : s.Noticed) : (judgeShowing n id s).Noticed := by
  induction n generalizing s with
  | zero => exact h
  | succ n ih =>
    unfold judgeShowing
    split
    · exact h
    · split
      · exact h
      · exact ih (transitionTo_noticed id _ h)
      next x _ _ _ =>
        have retired := retireNotices_noticed (.showing x.id)
          ((raise (.showing x.id) .showingFreed x.id x.state.code s).linkedNotices x.id)
          (s := raise (.showing x.id) .showingFreed x.id x.state.code s) (h.same rfl)
        exact State.Noticed.same retired rfl

theorem judgeAll_noticed {s : State} (h : s.Noticed) : (judgeAll s).Noticed :=
  foldl_keeps (I := State.Noticed) (fun _ id k => judgeShowing_noticed lifeSteps id k) _ h

theorem deliverMinute_noticed {s : State} (h : s.Noticed) : (deliverMinute s).Noticed := by
  have paced : ∀ u : State, u.Noticed → (paceMinute u).Noticed := fun _ k => k.same rfl
  have chosen : State.Noticed { s with choice := s.choice + 1 } := h.same rfl
  unfold deliverMinute
  dsimp only
  refine (apply_ite State.Noticed _ _ _).mpr ?_
  split
  · refine paced _ ?_
    split
    · exact noticeMinute_noticed _ (judgeAll_noticed chosen)
    · exact judgeAll_noticed (noticeMinute_noticed _ chosen)
  · exact paced _ (noticeMinute_noticed _ (judgeAll_noticed h))

theorem minuteWithExpiry_noticed {s : State} (h : s.Noticed) : (minuteWithExpiry s).Noticed := by
  have chosen : State.Noticed { s with choice := s.choice + 1 } := h.same rfl
  unfold minuteWithExpiry
  dsimp only
  split
  · split
    · exact deliverMinute_noticed (chosen.same (expireHolds_notices _ _))
    · exact (deliverMinute_noticed chosen).same (expireHolds_notices _ _)
  · exact deliverMinute_noticed (h.same (expireHolds_notices _ _))

theorem secondEvent_noticed {s : State} (h : s.Noticed) : (secondEvent s).Noticed := by
  unfold secondEvent
  split
  · exact h.same (secondInReset_aside _ s).notices
  · have counted : (countDown { s with cal := s.cal.tick.1 }).Noticed := h.same rfl
    have panels : ∀ u : State, u.Noticed → State.Noticed { u with panels := u.panels.map Panel.second } := fun _ k => k.same rfl
    refine State.Noticed.same (panels _ (State.Noticed.same ?_ (watchSecond_aside _).notices)) (settle_quiet _).aside.notices
    split
    · exact counted.same (expireHolds_notices _ _)
    · exact counted.same (expireHolds_notices _ (raise .board .clockLimit 0 0 _))
    · exact minuteWithExpiry_noticed (counted.same (calendarMinute_aside _).notices)

/-! ### The requests -/

theorem setTime_noticed (f : TimeFields) {s : State} (h : s.Noticed) : (setTime f s).2.Noticed := by
  have dated : ∀ c : Calendar, State.Noticed { s with cal := c } := fun _ => h.same rfl
  unfold setTime
  split
  · exact h
  · split
    · exact State.Noticed.same (dated _) (hushFrom_aside _ _ _).notices
    · dsimp only
      split
      · unfold forwardJump
        refine State.Noticed.same ?_ (hushFrom_aside _ _ _).notices
        have delivered := fun c => deliverMinute_noticed (dated c)
        split
        · exact State.Noticed.same (delivered _) rfl
        · exact delivered _
      · exact State.Noticed.same (dated _) (hushFrom_aside _ _ _).notices

theorem boardLifecycle_noticed (l : LifeSettings) {s : State} (h : s.Noticed) : (boardLifecycle l s).Noticed := by
  unfold boardLifecycle
  split
  · exact h
  · exact judgeAll_noticed (h.same rfl)

theorem boardBands_notices (source : Nat → Source) (g : FigureSettings) (s : State) :
    (boardBands source g s).notices = s.notices := by
  unfold boardBands
  dsimp only
  split
  · refine foldl_notices (fun u id => ?_) _ _
    unfold recomputeBand
    split
    · rfl
    · dsimp only
      split <;> rfl
  · rfl

theorem boardShowings_noticed (l : LifeSettings) (g : FigureSettings) {s : State} (h : s.Noticed) :
    (boardShowings l g s).Noticed := by
  have boxed : ∀ (b : List (Source × EventRecord)) {u : State}, u.Noticed → State.Noticed { u with outbox := b } := fun _ _ k => k.same rfl
  have chosen : State.Noticed { s with choice := s.choice + 1 } := h.same rfl
  have banded : ∀ {u : State}, u.Noticed → (boardBands (s.bandSource l) g u).Noticed := fun k => k.same (boardBands_notices _ _ _)
  have joined : ∀ (b : Bool) (r : List (Source × EventRecord)) {u : State}, u.Noticed → (joinBands b r u).Noticed := fun b r u k =>
    k.same (joinBands_aside b r u).notices
  unfold boardShowings
  dsimp only
  split
  · split
    · exact joined _ _ (boxed _ (banded (boxed _ (boardLifecycle_noticed l chosen))))
    · exact joined _ _ (boardLifecycle_noticed l (boxed _ (banded (boxed _ chosen))))
  · exact banded (boardLifecycle_noticed l h)

theorem setBoard_noticed (f : BoardFields) {s : State} (h : s.Noticed) : (setBoard f s).2.Noticed := by
  unfold setBoard
  split
  · exact h
  · have judged := boardShowings_noticed (boardLife f s.life) (boardFigure f s.figure) (h.same (boardCalendar_aside f s).notices)
    dsimp only
    generalize boardShowings (boardLife f s.life) (boardFigure f s.figure) (boardCalendar f s) = u at judged ⊢
    exact judged.same rfl

/-- BOARD CLEAR empties the Notice Unit, and what it does after that leaves it empty. -/
theorem boardClear_notices (p : Port) (s : State) : (boardClear p s).2.notices = NoticeUnit.empty := by
  have hushed : ∀ u : State, (judgeHushAll u).notices = u.notices := fun u => (Aside.of_zones (judgeHushAll_only u)).notices
  have told : ∀ (k : Nat) (u : State), (raise .board .boardCleared 0 k u).notices = u.notices := fun _ _ => rfl
  unfold boardClear
  dsimp only
  rw [told, hushed]
  split
  · exact (hushFrom_aside _ _ _).notices
  · rfl

theorem publish_noticed (f : PublishFields) {s : State} (h : s.Noticed) : (publish f s).2.Noticed := by
  unfold publish
  split
  · exact h
  · refine judgeShowing_noticed lifeSteps _ ?_
    have announced : ∀ (g : Source) (k : EventKind) (n d : Nat) (u : State), u.notices = s.notices →
        (raise g k n d (changeSeats (.seats (s.publishedShowing f).id) (s.publishedShowing f).id (fun y => y) u)).Noticed :=
      fun _ _ _ _ u e => h.same ((changeSeats_notices _ _ _ u).trans e)
    split
    · exact announced _ _ _ _ _ rfl
    · exact noticeForDelay_noticed _ _ (announced _ _ _ _ _ rfl)

theorem move_noticed (f : MoveFields) {s : State} (h : s.Noticed) : (move f s).2.Noticed := by
  have told : ∀ (id : Nat) (st : ShowState) (u : State), (raiseAmendment id st u).notices = u.notices := fun _ _ _ => rfl
  unfold move
  split
  · exact h
  · exact h
  · refine judgeShowing_noticed lifeSteps _ (h.same ?_)
    rw [told]
    split
    · split <;> rfl
    · exact seatChange_notices _ _ _ _ _

theorem delayShowing_noticed (id : Nat) (d : Byte) {s : State} (h : s.Noticed) : (delayShowing id d s).2.Noticed := by
  unfold delayShowing
  split
  · exact h
  · split
    · exact h
    · iterate 2 (split; · exact h)
      exact judgeShowing_noticed lifeSteps id (noticeForDelay_noticed _ _ (h.same rfl))

theorem setCapacity_notices (id c : Nat) (s : State) : (setCapacity id c s).2.notices = s.notices := by
  unfold setCapacity
  split
  · rfl
  · split
    · rfl
    · split
      · rfl
      · exact seatChange_notices _ _ _ _ s

theorem cancel_noticed (id : Nat) {s : State} (h : s.Noticed) : (cancel id s).2.Noticed := by
  unfold cancel
  split
  · exact h
  · split
    · exact h
    · split
      · exact h
      · have cancelled := transitionTo_noticed id .cancelled
          (s := s.modShowing id fun y => { y with purge := some (purgeAt (s.cal.m + s.life.linger)) }) (h.same rfl)
        dsimp only
        rw [inAnyOrder_rest]
        generalize transitionTo id .cancelled (s.modShowing id fun y => { y with purge := some (purgeAt (s.cal.m + s.life.linger)) }) =
          u at cancelled ⊢
        have boxed : State.Noticed { u with outbox := [] } := cancelled.same rfl
        exact State.Noticed.same (retireDelayed_noticed (.showing id) id (boxed.same (endHolds_notices _ _ _ _ _ _ _))) rfl

theorem sell_notices (id n : Nat) (s : State) : (sell id n s).2.notices = s.notices := by
  unfold sell
  split
  · rfl
  · split
    · rfl
    · iterate 2 (split; · rfl)
      exact seatChange_notices _ _ _ _ s

theorem refund_notices (id n : Nat) (s : State) : (refund id n s).2.notices = s.notices := by
  unfold refund
  split
  · rfl
  · split
    · rfl
    · exact seatChange_notices _ _ _ _ s

theorem snapshot_notices (id v : Nat) (s : State) : (snapshot id v s).2.notices = s.notices := by
  unfold snapshot
  split
  · rfl
  · split
    · rfl
    · exact seatChange_notices _ _ _ _ s

theorem holdSeats_notices (tag id n life : Nat) (s : State) : (holdSeats tag id n life s).2.notices = s.notices := by
  unfold holdSeats
  split
  · rfl
  · exact seatChange_notices _ _ _ _ _

theorem confirm_notices (tag n : Nat) (s : State) : (confirm tag n s).2.notices = s.notices := by
  unfold confirm
  split
  · rfl
  · split
    · rfl
    · exact seatChange_notices _ _ _ _ _

theorem releaseHold_notices (tag : Nat) (s : State) : (releaseHold tag s).2.notices = s.notices := by
  unfold releaseHold
  split
  · rfl
  · split
    · rfl
    · exact seatChange_notices _ _ _ _ _

/-! ### The step -/

theorem request_noticed (t : Txn) (n kind : Nat) (roles : List Role) {body : State → Answer × State}
    (h : ∀ u, u.Noticed → (body u).2.Noticed) {s : State} (hs : s.Noticed) : (request t n kind roles body s).Noticed :=
  request_carries (I := State.Noticed) (fun _ _ q k => k.same q.aside.notices) h hs

theorem exec_noticed {c : Instr} {s t : State} (h : s.Noticed) (ht : exec c s = .next t) : t.Noticed := by
  by_cases ha : Instr.isAside c = true
  · obtain ⟨u, hu, aside⟩ := exec_aside ha s
    obtain rfl := Host.Outcome.next.inj (hu.symm.trans ht)
    exact h.same aside.notices
  cases c <;> obtain rfl := Host.Outcome.next.inj ht
  case powerOnReset => exact .of_empty rfl
  case pinReset => exact .of_empty rfl
  case secondEvent => exact secondEvent_noticed h
  case dwellExpiry => split; exacts [secondEvent_noticed h, h]
  case holdExpiry => split; exacts [secondEvent_noticed h, h]
  case salesStale => split; exacts [secondEvent_noticed h, h]
  case minuteEvent => split; exacts [secondEvent_noticed h, h]
  case midnightEvent => split; exacts [secondEvent_noticed h, h]
  case flashTick =>
    split
    · exact h
    · exact h.map (f := Notice.tick) rfl Notice.tick_kept
  case setTime f => exact request_noticed _ _ _ _ (fun u k => setTime_noticed f k) h
  case setBoard f => exact request_noticed _ _ _ _ (fun u k => setBoard_noticed f k) h
  case boardClear t => exact request_noticed _ _ _ _ (fun u _ => .of_empty (boardClear_notices t.port u)) h
  case publish f => exact request_noticed _ _ _ _ (fun u k => publish_noticed f k) h
  case move f => exact request_noticed _ _ _ _ (fun u k => move_noticed f k) h
  case delay d => exact request_noticed _ _ _ _ (fun u k => delayShowing_noticed _ d k) h
  case setCapacity => exact request_noticed _ _ _ _ (fun u k => k.same (setCapacity_notices _ _ u)) h
  case cancel => exact request_noticed _ _ _ _ (fun u k => cancel_noticed _ k) h
  case sell => exact request_noticed _ _ _ _ (fun u k => k.same (sell_notices _ _ u)) h
  case refund => exact request_noticed _ _ _ _ (fun u k => k.same (refund_notices _ _ u)) h
  case snapshot => exact request_noticed _ _ _ _ (fun u k => k.same (snapshot_notices _ _ u)) h
  case hold => exact request_noticed _ _ _ _ (fun u k => k.same (holdSeats_notices _ _ _ _ u)) h
  case confirm => exact request_noticed _ _ _ _ (fun u k => k.same (confirm_notices _ _ u)) h
  case release => exact request_noticed _ _ _ _ (fun u k => k.same (releaseHold_notices _ u)) h
  case postNotice f => exact request_noticed _ _ _ _ (fun u k => postNotice_noticed f k) h
  case withdrawNotice => exact request_noticed _ _ _ _ (fun u k => withdrawNotice_noticed _ k) h
  all_goals exact absurd rfl ha

/-- Settles O59: every command keeps the invariant (`exec_noticed`): whatever changes the ACTIVE ALERTs judges the takeover table. -/
theorem everyStepKeepsTheTakeovers : Obligations.EveryStepKeepsTheTakeovers := by
  unfold Obligations.EveryStepKeepsTheTakeovers
  intro s t _ h ht
  exact step_keeps (I := State.Noticed) (fun _ _ k => k.same rfl) (fun _ _ k => k.same rfl) (fun c _ _ k hc => exec_noticed k hc) h ht

end Sys2Proof.Machine
end

section
/-! PROOFS about what a panel's zone rests on. The view of a panel is all that the zones' invariants read of it; every operation of the
zones acts on the view of one panel, and leaves the others. -/

namespace Sys2Proof.Machine

/-! ### Views -/

/-- What the invariants of R120, R128, R146 and R154 read of a panel: whether its zone is busy, its hushed mark, whether no text is marked
current, its profile's carousel, the carousel of its play, whether its head is present and has a zone, and whether it is taken over. -/
structure ZoneView where
  busy : Bool
  hushed : Bool
  bare : Bool
  carousel : Nat
  play : Option Nat
  present : Bool
  zoned : Bool
  taken : Bool

def State.view (s : State) (p : Nat) : ZoneView where
  busy := (s.panel p).zone.busy
  hushed := (s.panel p).hushed
  bare := (s.panel p).current.isEmpty
  carousel := (s.panel p).profile.carousel
  play := (s.play? p).map Play.carousel
  present := (s.link p).head.present
  zoned := (s.link p).zonePresent == some true
  taken := (s.takeover p).isSome

/-- R128 on a view. -/
def ZoneView.member (v : ZoneView) (k : Nat) : Bool :=
  decide (k ≠ 0) && v.carousel == k && v.present && v.zoned && !v.hushed && !v.taken

theorem State.member_view (s : State) (k p : Nat) : s.member k p = (s.view p).member k := by
  unfold State.member ZoneView.member State.view
  cases s.takeover p <;> rfl

/-- R120, R146, R154 on a view. -/
structure ZoneView.Zone (v : ZoneView) : Prop where
  play : v.busy = v.play.isSome
  free : v.busy = true → v.present = true ∧ v.hushed = false ∧ v.taken = false
  texts : v.present = false → v.bare = true

/-- R131 on a view. -/
def ZoneView.Played (v : ZoneView) : Prop := ∀ k, v.play = some k → v.member k = true

/-- Both, the second where it is asked for. -/
def ZoneView.Fit (b : Prop) (v : ZoneView) : Prop := v.Zone ∧ (b → v.Played)

theorem State.zoneFits_view (s : State) (p : Nat) : s.ZoneFits p ↔ (s.view p).Zone := by
  constructor
  · intro h
    exact ⟨by simpa [State.view] using h.play,
      fun hb => ⟨h.head hb, h.lit hb, by simpa [State.view] using h.free hb⟩, fun hp => by simpa [State.view] using h.texts hp⟩
  · intro h
    exact ⟨by simpa [State.view] using h.play, fun hb => (h.free hb).1, fun hb => (h.free hb).2.1,
      fun hb => by simpa [State.view] using (h.free hb).2.2, fun hp => by simpa [State.view] using h.texts hp⟩

/-! ### What the zones' operations do to a view -/

/-- A busy zone ended. -/
def ZoneView.stop (v : ZoneView) : ZoneView := if v.busy then { v with busy := false, play := none } else v

/-- A membership judged. -/
def ZoneView.judged (v : ZoneView) : ZoneView :=
  match v.play with
  | none => v
  | some k => if v.member k then v else v.stop

/-- A hushed mark judged. -/
def ZoneView.hush (due : Bool) (v : ZoneView) : ZoneView :=
  ZoneView.judged (if due then ZoneView.stop { v with hushed := due } else { v with hushed := due })

/-- A head state entered. -/
def ZoneView.enter (h : HeadState) (v : ZoneView) : ZoneView :=
  ZoneView.judged
    (if h.empties then { ZoneView.stop { v with present := h.present } with bare := true } else { v with present := h.present })

theorem ZoneView.stop_rest {v : ZoneView} (h : v.busy = v.play.isSome) : v.stop = { v with busy := false, play := none } := by
  unfold ZoneView.stop
  split
  · rfl
  next hb =>
    obtain ⟨busy, hushed, bare, carousel, play, present, zoned, taken⟩ := v
    simp only [Bool.not_eq_true] at hb
    obtain rfl := hb
    cases play with
    | none => rfl
    | some k => cases h

/-- At rest a view fits, where no text is marked under an absent head. -/
theorem ZoneView.fit_rest {b : Prop} {v : ZoneView} (hb : v.busy = false) (hp : v.play = none)
    (ht : v.present = false → v.bare = true) : v.Fit b :=
  ⟨⟨by rw [hb, hp]; rfl, fun h => (by rw [hb] at h; cases h), ht⟩, fun _ k hk => by rw [hp] at hk; cases hk⟩

theorem ZoneView.fit_stop {b : Prop} {v : ZoneView} (h : v.busy = v.play.isSome) (ht : v.present = false → v.bare = true) :
    v.stop.Fit b := by
  rw [ZoneView.stop_rest h]
  exact ZoneView.fit_rest rfl rfl ht

theorem ZoneView.judged_fit {b : Prop} {v : ZoneView} (h : v.Zone) : v.judged.Fit b := by
  unfold ZoneView.judged
  split
  next hp => exact ⟨h, fun _ k hk => by rw [hp] at hk; cases hk⟩
  next k hp =>
    split
    next hm => exact ⟨h, fun _ j hj => by
      rw [hp] at hj
      obtain rfl := Option.some.inj hj
      exact hm⟩
    · exact ZoneView.fit_stop h.play h.texts

theorem ZoneView.Fit.stop {b : Prop} {v : ZoneView} (h : v.Fit b) : v.stop.Fit b := ZoneView.fit_stop h.1.play h.1.texts

/-- A hushed mark judged leaves a view that fits, where a busy zone was rightly so but for the mark. -/
theorem ZoneView.hush_fit {b : Prop} {v : ZoneView} (due : Bool) (hplay : v.busy = v.play.isSome)
    (hfree : v.busy = true → v.present = true ∧ v.taken = false) (ht : v.present = false → v.bare = true) : (v.hush due).Fit b := by
  refine ZoneView.judged_fit ?_
  split
  next hd => exact (ZoneView.fit_stop (b := False) (v := { v with hushed := due }) hplay ht).1
  next hd => exact ⟨hplay, fun hb => ⟨(hfree hb).1, by simpa using hd, (hfree hb).2⟩, ht⟩

theorem ZoneView.Fit.hush {b : Prop} {v : ZoneView} (h : v.Fit b) (due : Bool) : (v.hush due).Fit b :=
  ZoneView.hush_fit due h.1.play (fun hb => ⟨(h.1.free hb).1, (h.1.free hb).2.2⟩) h.1.texts

theorem HeadState.empties_present (h : HeadState) : h.empties = !h.present := by cases h <;> rfl

theorem ZoneView.Zone.enter {b : Prop} {v : ZoneView} (h : v.Zone) (head : HeadState) : (v.enter head).Fit b := by
  refine ZoneView.judged_fit ?_
  split
  · rw [ZoneView.stop_rest (v := { v with present := head.present }) h.play]
    exact (ZoneView.fit_rest (b := False) rfl rfl fun _ => rfl).1
  next he =>
    rw [HeadState.empties_present] at he
    have hp : head.present = true := by simpa using he
    exact ⟨h.play, fun hb => ⟨hp, (h.free hb).2⟩, fun hf => by rw [show head.present = false from hf] at hp; cases hp⟩

/-! ### Reading a table after a change -/

/-- A change that leaves the default is read the same way in range and out of it. -/
theorem slot_modSlot_default {α : Type} (d : α) (f : α → α) (l : List α) (n i : Nat) (h : f d = d) :
    slot d (modSlot f l n) i = if i = n then f (slot d l n) else slot d l i := by
  split
  next e =>
    subst e
    by_cases hr : 1 ≤ i ∧ i ≤ l.length
    · exact slot_modSlot_same d f l i hr.1 hr.2
    · have out : i = 0 ∨ l.length < i := by omega
      rw [modSlot_out f l i out]
      have : slot d l i = d := by
        cases i with
        | zero => rfl
        | succ k => exact List.getD_eq_default _ _ (by omega)
      rw [this, h]
  next e => exact slot_modSlot_other d f l n i e

theorem State.panel_modPanel (p q : Nat) (f : Panel → Panel) (s : State) (h : f Panel.atReset = Panel.atReset) :
    (s.modPanel p f).panel q = if q = p then f (s.panel p) else s.panel q :=
  slot_modSlot_default _ f s.panels p q h

theorem State.play?_setPlay_none (p q : Nat) (s : State) : (s.setPlay p none).play? q = if q = p then none else s.play? q :=
  slot_modSlot_default _ (fun _ => none) s.plays p q rfl

/-! ### Ending a play -/

/-- The record of panel p is discarded, and beyond it an outcome changes carousels and records alone (R131 to R133). -/
theorem handOutcome_effect (p : Nat) (o : PlayOutcome) (s : State) :
    (handOutcome p o s).panels = s.panels ∧ (handOutcome p o s).links = s.links ∧ (handOutcome p o s).notices = s.notices ∧
      ∀ q, (handOutcome p o s).play? q = if q = p then none else s.play? q := by
  unfold handOutcome
  split
  next h =>
    refine ⟨rfl, rfl, rfl, fun q => ?_⟩
    split
    next e => rw [e]; exact h
    · rfl
  · dsimp only
    cases o <;> dsimp only <;> split <;> exact ⟨rfl, rfl, rfl, fun q => State.play?_setPlay_none p q s⟩

/-- What the end of a play leaves of panels, plays and links. -/
theorem endPlay_effect (p : Nat) (o : PlayOutcome) (s : State) :
    (∀ q, (endPlay p o s).panel q = if q = p then { s.panel p with zone := .idle } else s.panel q) ∧
      (endPlay p o s).links = s.links ∧ (endPlay p o s).notices = s.notices ∧
      ∀ q, (endPlay p o s).play? q = if q = p ∧ (s.panel p).zone.busy = true then none else s.play? q := by
  have ended : (s.panel p).zone.busy = true →
      (∀ q, (handOutcome p o (clearZone p s)).panel q = if q = p then { s.panel p with zone := .idle } else s.panel q) ∧
      (handOutcome p o (clearZone p s)).links = s.links ∧ (handOutcome p o (clearZone p s)).notices = s.notices ∧
      ∀ q, (handOutcome p o (clearZone p s)).play? q = if q = p ∧ (s.panel p).zone.busy = true then none else s.play? q := fun hb => by
    obtain ⟨hpanels, hlinks, hnotices, hplays⟩ := handOutcome_effect p o (clearZone p s)
    refine ⟨fun q => ?_, hlinks, hnotices, fun q => ?_⟩
    · unfold State.panel at *
      rw [hpanels]
      exact State.panel_modPanel p q _ s rfl
    · rw [hplays q]
      simp only [hb, and_true]
      rfl
  unfold endPlay
  split
  next h =>
    have hb : (s.panel p).zone.busy = false := by rw [h]; rfl
    refine ⟨fun q => ?_, rfl, rfl, fun q => by simp [hb]⟩
    split
    next e => rw [← h, e]
    · rfl
  next h => exact ended (by rw [h]; rfl)
  next h => exact ended (by rw [h]; rfl)

theorem State.takeover_congr {s t : State} (h : t.notices.takeover = s.notices.takeover) (p : Nat) : t.takeover p = s.takeover p := by
  unfold State.takeover
  rw [h]

theorem State.link_congr {s t : State} (h : t.links = s.links) (p : Nat) : t.link p = s.link p := by
  unfold State.link
  rw [h]

theorem endPlay_view (p : Nat) (o : PlayOutcome) (s : State) (q : Nat) :
    (endPlay p o s).view q = if q = p then (s.view p).stop else s.view q := by
  obtain ⟨hpanel, hlinks, hnotices, hplay⟩ := endPlay_effect p o s
  have htake : (endPlay p o s).takeover q = s.takeover q := State.takeover_congr (by rw [hnotices]) q
  unfold State.view ZoneView.stop
  rw [hpanel q, hplay q, State.link_congr hlinks q, htake]
  by_cases e : q = p
  · subst e
    cases (s.panel q).zone.busy <;> simp [Zone.busy]
  · simp [e]

theorem stopZone_view (p : Nat) (s : State) (q : Nat) : (stopZone p s).view q = if q = p then (s.view p).stop else s.view q :=
  endPlay_view p .stop s q

/-! ### Judging -/

theorem judgeMember_view (p : Nat) (s : State) (q : Nat) :
    (judgeMember p s).view q = if q = p then (s.view p).judged else s.view q := by
  unfold judgeMember ZoneView.judged
  cases h : s.play? p with
  | none =>
    have hv : (s.view p).play = none := by simp [State.view, h]
    rw [hv]
    dsimp only
    split
    next e => rw [e]
    · rfl
  | some r =>
    have hv : (s.view p).play = some r.carousel := by simp [State.view, h]
    rw [hv]
    dsimp only
    rw [State.member_view]
    by_cases hm : (s.view p).member r.carousel = true
    · simp only [hm, if_true]
      split
      next e => rw [e]
      · rfl
    · simp only [hm, Bool.false_eq_true, if_false]
      exact stopZone_view p s q

/-- A panel's hushed mark read from its view. -/
theorem modPanel_hushed_view (p : Nat) (due : Bool) (s : State) (hp : 1 ≤ p ∧ p ≤ s.panels.length) (q : Nat) :
    (s.modPanel p fun c => { c with hushed := due }).view q = if q = p then { s.view p with hushed := due } else s.view q := by
  have hpanel : (s.modPanel p fun c => { c with hushed := due }).panel q =
      if q = p then { s.panel p with hushed := due } else s.panel q := by
    split
    next e => rw [e]; exact slot_modSlot_same _ _ s.panels p hp.1 hp.2
    next e => exact slot_modSlot_other _ _ s.panels p q e
  unfold State.view
  rw [hpanel]
  split
  next e => rw [e]; rfl
  · rfl

theorem judgeHush_view (p : Nat) (s : State) (hp : 1 ≤ p ∧ p ≤ s.panels.length) (q : Nat) :
    (judgeHush p s).view q = if q = p then (s.view p).hush (s.hushDue p) else s.view q := by
  unfold judgeHush ZoneView.hush
  dsimp only
  rw [judgeMember_view]
  by_cases hd : s.hushDue p = true
  · simp only [hd, if_true]
    rw [stopZone_view, stopZone_view, modPanel_hushed_view p true s hp p, modPanel_hushed_view p true s hp q]
    by_cases e : q = p <;> simp [e]
  · have hd' : s.hushDue p = false := by simpa using hd
    simp only [hd', Bool.false_eq_true, if_false]
    rw [modPanel_hushed_view p false s hp p, modPanel_hushed_view p false s hp q]
    by_cases e : q = p <;> simp [e]

/-! ### The tables of panels, plays and links stand at their sizes -/

/-- The tables that the zones are read from hold one entry for each panel. -/
structure State.Sized (s : State) : Prop where
  panels : s.panels.length = 12
  plays : s.plays.length = 12
  links : s.links.length = 12

theorem panelNumbers_range {p : Nat} (h : p ∈ panelNumbers) : 1 ≤ p ∧ p ≤ 12 := by
  simp only [panelNumbers, List.mem_cons, List.not_mem_nil, or_false] at h
  omega

theorem panelOf_mem (p : Link) : panelOf p ∈ panelNumbers := by
  have := p.isLt
  simp only [panelOf, panelNumbers, List.mem_cons, List.not_mem_nil, or_false]
  omega

/-- Work of the day keeps the sizes. -/
theorem DayWork.sized {s t : State} (h : DayWork s t) (k : s.Sized) : t.Sized where
  panels := by
    have := congrArg List.length h.profiles
    rw [List.length_map, List.length_map] at this
    rw [this, k.panels]
  plays := h.plays.trans k.plays
  links := by rw [h.frame.links, k.links]

end Sys2Proof.Machine
end

section
/-! PROOFS that every operation of the board keeps the trailer zones in step with plays, heads, hushed marks and takeovers, and the plays
with the membership (R120, R128, R131, R146, R154). -/

namespace Sys2Proof.Machine

/-- Every panel's view fits, and the tables have their sizes; with b, every panel with a play is a member of its carousel. -/
structure State.Zones (b : Prop) (s : State) : Prop where
  sized : s.Sized
  fit : ∀ p ∈ panelNumbers, (s.view p).Fit b

/-- Panels, plays, links and the takeover table stand as they were. -/
structure Still (s t : State) : Prop where
  panels : t.panels = s.panels
  plays : t.plays = s.plays
  links : t.links = s.links
  takeover : t.notices.takeover = s.notices.takeover

variable {b : Prop} {s t : State}

theorem State.Zones.views (h : s.Zones b) (sized : t.Sized) (same : ∀ p, t.view p = s.view p) : t.Zones b :=
  ⟨sized, fun p hp => by rw [same p]; exact h.fit p hp⟩

theorem State.Zones.still (h : s.Zones b) (k : Still s t) : t.Zones b := by
  obtain ⟨hpanels, hplays, hlinks, htake⟩ := k
  refine h.views ⟨hpanels ▸ h.sized.panels, hplays ▸ h.sized.plays, hlinks ▸ h.sized.links⟩ fun p => ?_
  unfold State.view State.panel State.play? State.link State.takeover
  rw [hpanels, hplays, hlinks, htake]

theorem State.Zones.quiet (h : s.Zones b) (k : Quiet s t) : t.Zones b :=
  h.still ⟨k.panels, k.plays, k.links, by rw [k.aside.notices]⟩

/-- A change of one panel's view that keeps it fit. -/
theorem State.Zones.act (h : s.Zones b) (sized : t.Sized) {p : Nat} {g : ZoneView → ZoneView}
    (hview : ∀ q, t.view q = if q = p then g (s.view p) else s.view q)
    (hg : p ∈ panelNumbers → (g (s.view p)).Fit b) : t.Zones b := by
  refine ⟨sized, fun q hq => ?_⟩
  rw [hview q]
  split
  next e => exact hg (e ▸ hq)
  · exact h.fit q hq

/-! ### Stops and judgements -/

theorem State.Zones.endPlay (h : s.Zones b) (p : Nat) (o : PlayOutcome) : (endPlay p o s).Zones b :=
  h.act ((endPlay_work p o s).sized h.sized) (endPlay_view p o s) fun hp => (h.fit p hp).stop

theorem State.Zones.judgeMember (h : s.Zones b) (p : Nat) : (judgeMember p s).Zones b :=
  h.act ((judgeMember_work p s).sized h.sized) (judgeMember_view p s) fun hp => ZoneView.judged_fit (h.fit p hp).1

theorem State.Zones.judgeHush (h : s.Zones b) {p : Nat} (hp : p ∈ panelNumbers) : (judgeHush p s).Zones b :=
  h.act ((judgeHush_work p s).sized h.sized) (judgeHush_view p s (by rw [h.sized.panels]; exact panelNumbers_range hp))
    fun hp => (h.fit p hp).hush _

theorem State.Zones.judgeHushAll (h : s.Zones b) : (judgeHushAll s).Zones b := by
  unfold Machine.judgeHushAll
  suffices ∀ (l : List Nat) (u : State), (∀ p ∈ l, p ∈ panelNumbers) → u.Zones b →
      (l.foldl (fun t p => Machine.judgeHush p t) u).Zones b from this panelNumbers s (fun _ hp => hp) h
  intro l
  induction l with
  | nil => exact fun _ _ k => k
  | cons p l ih =>
    intro u hl k
    exact ih _ (fun q hq => hl q (by simp [hq])) (k.judgeHush (hl p (by simp)))

/-! ### The takeover table -/

/-- The hand-off of a panel acts on its view alone. -/
theorem takeoverChange_view (before : Option Nat) (p : Nat) (s : State) (hp : 1 ≤ p ∧ p ≤ s.panels.length) :
    ∃ due, ∀ q, (takeoverChange before p s).view q = if q = p then
      (match before.isSome, (s.view p).taken with
        | false, true => (s.view p).stop.hush due
        | true, false => (s.view p).hush due
        | _, _ => s.view p)
      else s.view q := by
  have same : ∀ q, s.view q = if q = p then s.view p else s.view q := fun q => by
    split
    next e => rw [e]
    · rfl
  have taken : (s.view p).taken = (s.takeover p).isSome := rfl
  unfold takeoverChange
  rw [taken]
  cases before <;> cases s.takeover p
  · exact ⟨true, same⟩
  · refine ⟨(stopZone p s).hushDue p, fun q => ?_⟩
    have hp' : 1 ≤ p ∧ p ≤ (stopZone p s).panels.length := by
      have := congrArg List.length (stopZone_work p s).profiles
      rw [List.length_map, List.length_map] at this
      rw [this]
      exact hp
    show (judgeHush p (stopZone p s)).view q = _
    rw [judgeHush_view p _ hp', stopZone_view, stopZone_view]
    by_cases e : q = p <;> simp [e]
  · exact ⟨_, judgeHush_view p s hp⟩
  · exact ⟨true, same⟩

/-- A fold of changes, each of one panel's view, turns what holds of every view before into what holds of every view after. -/
theorem foldl_views {f : Nat → State → State} {Pre Post : Nat → ZoneView → Prop} (J : State → Prop)
    (keep : ∀ p u, J u → J (f p u)) (other : ∀ p q u, J u → p ∈ panelNumbers → q ≠ p → (f p u).view q = u.view q)
    (here : ∀ p u, J u → p ∈ panelNumbers → Pre p (u.view p) → Post p ((f p u).view p)) (l : List Nat) (hnd : l.Nodup)
    (hl : ∀ p ∈ l, p ∈ panelNumbers) (s : State) (hJ : J s) (hpre : ∀ p ∈ l, Pre p (s.view p)) :
    J (l.foldl (fun t p => f p t) s) ∧ (∀ p ∈ l, Post p ((l.foldl (fun t p => f p t) s).view p)) ∧
      ∀ q, q ∉ l → (l.foldl (fun t p => f p t) s).view q = s.view q := by
  induction l generalizing s with
  | nil => exact ⟨hJ, by simp, by simp⟩
  | cons p l ih =>
    obtain ⟨hnot, hnd'⟩ := List.nodup_cons.1 hnd
    have hp := hl p (by simp)
    obtain ⟨kJ, kpost, krest⟩ := ih hnd' (fun q hq => hl q (by simp [hq])) (f p s) (keep p s hJ) fun q hq => by
      rw [other p q s hJ hp fun e => hnot (e ▸ hq)]
      exact hpre q (by simp [hq])
    refine ⟨kJ, fun q hq => ?_, fun q hq => ?_⟩
    · rcases List.mem_cons.1 hq with rfl | hq
      · rw [List.foldl_cons, krest q hnot]
        exact here q s hJ hp (hpre q (by simp))
      · exact kpost q hq
    · simp only [List.mem_cons, not_or] at hq
      rw [List.foldl_cons, krest q hq.2]
      exact other p q s hJ hp hq.1

/-- A takeover that begins stops the zone, and one that ends finds it IDLE (R114, R145). -/
theorem State.Zones.judgeTakeover (h : s.Zones b) : (judgeTakeover s).Zones b := by
  unfold Machine.judgeTakeover
  dsimp only
  generalize panelNumbers.map s.takeoverDue = entries
  have sized : State.Sized { s with notices := { s.notices with takeover := entries } } := ⟨h.sized.panels, h.sized.plays, h.sized.links⟩
  have range : ∀ {p : Nat} {u : State}, u.Sized → p ∈ panelNumbers → 1 ≤ p ∧ p ≤ u.panels.length := fun k hp => by
    rw [k.panels]
    exact panelNumbers_range hp
  obtain ⟨hJ, hpost, -⟩ := foldl_views (f := fun p t => takeoverChange (s.takeover p) p t) (J := State.Sized)
    (Pre := fun p v => ∃ w : ZoneView, w.Fit b ∧ w.taken = (s.takeover p).isSome ∧ v = { w with taken := v.taken })
    (Post := fun _ v => v.Fit b)
    (fun p u k => (takeoverChange_work _ p u).sized k)
    (fun p q u k hp hq => by
      obtain ⟨due, e⟩ := takeoverChange_view (s.takeover p) p u (range k hp)
      rw [e q, if_neg hq])
    (fun p u k hp hpre => by
      obtain ⟨due, e⟩ := takeoverChange_view (s.takeover p) p u (range k hp)
      obtain ⟨w, hw, hwt, hv⟩ := hpre
      rw [e p, if_pos rfl, ← hwt]
      generalize u.view p = v at hv
      generalize hvt : v.taken = now at hv
      subst hv
      have rest : w.taken = true → w.busy = false := fun ht => by
        by_contra hb
        rw [(hw.1.free (by simpa using hb)).2.2] at ht
        cases ht
      cases hwt' : w.taken <;> cases now <;> dsimp only
      · rwa [← hwt']
      · exact (ZoneView.fit_stop (v := { w with taken := true }) hw.1.play hw.1.texts).hush due
      · exact ZoneView.hush_fit due hw.1.play (fun hb => absurd hb (by simp [rest hwt'])) hw.1.texts
      · rwa [← hwt'])
    panelNumbers (by decide) (fun _ hp => hp) { s with notices := { s.notices with takeover := entries } } sized
    (fun p hp => ⟨s.view p, h.fit p hp, rfl, rfl⟩)
  exact ⟨hJ, hpost⟩

/-! ### Heads -/

theorem modLink_sized (p : Nat) (f : LinkContext → LinkContext) (h : s.Sized) : (s.modLink p f).Sized :=
  ⟨h.panels, h.plays, by rw [State.modLink, modSlot_length, h.links]⟩

/-- A change of a link read from the panel's view. -/
theorem modLink_view (p : Nat) (f : LinkContext → LinkContext) (hs : s.Sized) (hp : p ∈ panelNumbers) (q : Nat) :
    (s.modLink p f).view q = if q = p then { s.view p with
      present := (f (s.link p)).head.present, zoned := (f (s.link p)).zonePresent == some true } else s.view q := by
  have hlink : (s.modLink p f).link q = if q = p then f (s.link p) else s.link q := by
    have := panelNumbers_range hp
    split
    next e => rw [e]; exact slot_modSlot_same _ f s.links p this.1 (by rw [hs.links]; exact this.2)
    next e => exact slot_modSlot_other _ f s.links p q e
  unfold State.view
  rw [hlink]
  split
  next e => rw [e]; rfl
  · rfl

/-- A change of a link that keeps its head and the zone of its head keeps every view. -/
theorem modLink_same_view (p : Nat) (f : LinkContext → LinkContext)
    (hf : ∀ l, (f l).head = l.head ∧ (f l).zonePresent = l.zonePresent) (s : State) (q : Nat) : (s.modLink p f).view q = s.view q := by
  have hlink : ((s.modLink p f).link q).head = (s.link q).head ∧ ((s.modLink p f).link q).zonePresent = (s.link q).zonePresent := by
    by_cases e : q = p
    · subst e
      by_cases hr : 1 ≤ q ∧ q ≤ s.links.length
      · have := slot_modSlot_same LinkContext.atReset f s.links q hr.1 hr.2
        unfold State.link State.modLink
        rw [this]
        exact hf _
      · unfold State.modLink
        rw [modSlot_out f s.links q (by omega)]
        exact ⟨rfl, rfl⟩
    · have := slot_modSlot_other LinkContext.atReset f s.links p q e
      unfold State.link State.modLink
      rw [this]
      exact ⟨rfl, rfl⟩
  unfold State.view
  rw [hlink.1, hlink.2]
  rfl

theorem State.Zones.modLink (h : s.Zones b) (p : Nat) {f : LinkContext → LinkContext}
    (hf : ∀ l, (f l).head = l.head ∧ (f l).zonePresent = l.zonePresent) : (s.modLink p f).Zones b :=
  h.views (modLink_sized p f h.sized) (modLink_same_view p f hf s)

theorem clearTexts_view (p : Nat) (s : State) (q : Nat) :
    (clearTexts p s).view q = if q = p then { s.view p with bare := true } else s.view q := by
  have hpanel := State.panel_modPanel p q (fun c => { c with current := [] }) s rfl
  unfold clearTexts
  unfold State.view
  rw [hpanel]
  split
  next e => rw [e]; rfl
  · rfl

theorem enterHead_sized (p : Nat) (h : HeadState) (hs : s.Sized) : (enterHead p h s).Sized := by
  unfold enterHead
  dsimp only
  have linked : (s.modLink p fun l => { l with head := h }).Sized := modLink_sized p _ hs
  have entered : (raise (.link p) .panelState p h.code (s.modLink p fun l => { l with head := h })).Sized :=
    ⟨linked.panels, linked.plays, linked.links⟩
  refine (judgeMember_work p _).sized ?_
  split
  · exact (clearTexts_work p _).sized ((stopZone_work p _).sized entered)
  · exact entered

theorem enterHead_view (p : Nat) (head : HeadState) (hs : s.Sized) (hp : p ∈ panelNumbers) (q : Nat) :
    (enterHead p head s).view q = if q = p then (s.view p).enter head else s.view q := by
  have hlink := modLink_view p (fun l => { l with head := head }) hs hp
  have raised : ∀ i, (raise (.link p) .panelState p head.code (s.modLink p fun l => { l with head := head })).view i =
      (s.modLink p fun l => { l with head := head }).view i := fun _ => rfl
  have same : (s.view p).zoned = ((s.link p).zonePresent == some true) := rfl
  unfold enterHead ZoneView.enter
  dsimp only
  rw [judgeMember_view]
  by_cases he : head.empties = true
  · simp only [he, if_true]
    rw [clearTexts_view, clearTexts_view, stopZone_view, stopZone_view, raised, raised, hlink, hlink]
    by_cases e : q = p <;> simp [e, ← same]
  · simp only [he, Bool.false_eq_true, if_false]
    rw [raised, raised, hlink, hlink]
    by_cases e : q = p <;> simp [e, ← same]

/-- A head state entered: what fits but for the membership fits (R154). -/
theorem State.Zones.enterHead {c : Prop} (h : s.Zones c) {p : Nat} (hp : p ∈ panelNumbers)
    (others : ∀ q ∈ panelNumbers, q ≠ p → (s.view q).Fit b) (head : HeadState) : (enterHead p head s).Zones b := by
  refine ⟨enterHead_sized p head h.sized, fun q hq => ?_⟩
  rw [enterHead_view p head h.sized hp]
  split
  · exact (h.fit p hp).1.enter head
  next e => exact others q hq e

theorem State.Zones.enter (h : s.Zones b) {p : Nat} (hp : p ∈ panelNumbers) (head : HeadState) : (Machine.enterHead p head s).Zones b :=
  h.enterHead hp (fun q hq _ => h.fit q hq) head

end Sys2Proof.Machine
end

section
/-! PROOFS of the step lemma of the zones: the work of the day through the stops and judgements of P10's lemmas, the takes, the links and
the requests about carousels and panels. -/

namespace Sys2Proof.Machine

/-! ### What leaves the views -/

namespace Still

theorem refl (s : State) : Still s s := ⟨rfl, rfl, rfl, rfl⟩

theorem trans {s t u : State} (h : Still s t) (k : Still t u) : Still s u :=
  ⟨k.panels.trans h.panels, k.plays.trans h.plays, k.links.trans h.links, k.takeover.trans h.takeover⟩

theorem foldl {α : Type} {f : State → α → State} (h : ∀ u x, Still u (f u x)) (l : List α) (s : State) : Still s (l.foldl f s) :=
  foldl_rel Still refl trans f h l s

end Still

theorem changeSeats_still (g : Source) (id : Nat) (f : Showing → Showing) (s : State) : Still s (changeSeats g id f s) := by
  unfold changeSeats
  split
  · exact .refl s
  · dsimp only
    split <;> split <;> exact ⟨rfl, rfl, rfl, rfl⟩

theorem seatChange_still (kind : JournalKind) (id n : Nat) (f : Showing → Showing) (s : State) :
    Still s (seatChange kind id n f s) := by
  refine (changeSeats_still (.seats id) id f s).trans ?_
  unfold seatChange journalShowing
  split <;> exact ⟨rfl, rfl, rfl, rfl⟩

theorem endHolds_still (g : Source) (reason : Nat) (kind : JournalKind) (id : Nat) (ended : List Hold) (f : Showing → Showing)
    (s : State) : Still s (endHolds g reason kind id ended f s) := by
  unfold endHolds
  split
  · exact .refl s
  · refine Still.trans ?_ (changeSeats_still _ _ _ _)
    have told : ∀ (l : List Hold) (u : State), Still u (l.foldl (fun t h => raise g .holdEnded h.tag reason t) u) := fun l u =>
      foldl_rel Still .refl .trans _ (fun _ _ => by exact ⟨rfl, rfl, rfl, rfl⟩) l u
    have written : ∀ (l : List JournalEntry) (u : State), Still u (l.foldl (fun t e => journalize g e t) u) := fun l u =>
      foldl_rel Still .refl .trans _ (fun _ _ => by exact ⟨rfl, rfl, rfl, rfl⟩) l u
    refine Still.trans (Still.trans ?_ (told _ _)) (written _ _)
    exact ⟨rfl, rfl, rfl, rfl⟩

theorem expireHolds_still (source : Nat → Source) (s : State) : Still s (expireHolds source s) := by
  unfold expireHolds
  exact .foldl (fun u id => endHolds_still _ _ _ _ _ _ u) _ s

theorem boardBands_still (source : Nat → Source) (g : FigureSettings) (s : State) : Still s (boardBands source g s) := by
  unfold boardBands
  dsimp only
  split
  · refine Still.trans (t := { s with figure := g }) ⟨rfl, rfl, rfl, rfl⟩ (.foldl (fun u id => ?_) _ _)
    unfold recomputeBand
    split
    · exact .refl u
    · dsimp only
      split
      · exact .refl u
      · exact ⟨rfl, rfl, rfl, rfl⟩
  · exact ⟨rfl, rfl, rfl, rfl⟩

theorem joinBands_still (first : Bool) (bands : List (Source × EventRecord)) (s : State) : Still s (joinBands first bands s) := by
  obtain ⟨_, _, e⟩ := joinBands_rest first bands s
  rw [e]
  exact ⟨rfl, rfl, rfl, rfl⟩

variable {b : Prop} {s : State}

theorem State.Zones.raise (h : s.Zones b) (g : Source) (k : EventKind) (n d : Nat) : (raise g k n d s).Zones b :=
  h.still ⟨rfl, rfl, rfl, rfl⟩

/-! ### Notices -/

theorem raises_still {α : Type} (g : α → Source) (k : EventKind) (n : α → Nat) (d : Nat) (l : List α) (s : State) :
    Still s (l.foldl (fun u x => raise (g x) k (n x) d u) s) :=
  foldl_rel Still .refl .trans _ (fun _ _ => by exact ⟨rfl, rfl, rfl, rfl⟩) l s

theorem State.Zones.freeNotices (h : s.Zones b) (ids : List Nat) : (freeNotices ids s).Zones b := h.still ⟨rfl, rfl, rfl, rfl⟩

theorem State.Zones.retireNotices (h : s.Zones b) (g : Source) (ids : List Nat) : (retireNotices g ids s).Zones b := by
  unfold Machine.retireNotices
  split
  · exact h
  · have chosen : State.Zones b { s with choice := s.choice + ids.length } := h.still ⟨rfl, rfl, rfl, rfl⟩
    exact ((chosen.still (raises_still (fun _ => g) .noticeState (fun id => id) noticeRetired _ _)).freeNotices ids).judgeTakeover

theorem State.Zones.retireDelayed (h : s.Zones b) (g : Source) (id : Nat) : (retireDelayed g id s).Zones b := by
  unfold Machine.retireDelayed
  split
  · exact h.retireNotices g _
  · exact h

theorem State.Zones.noticeForDelay (h : s.Zones b) (id delay : Nat) : (noticeForDelay id delay s).1.Zones b := by
  unfold Machine.noticeForDelay
  split
  · exact h.retireDelayed _ id
  · split
    · exact h.still ⟨rfl, rfl, rfl, rfl⟩
    · unfold createDelayed
      split
      · split
        · exact h.still ⟨rfl, rfl, rfl, rfl⟩
        · exact h
      · exact h

theorem State.Zones.noticeMinute (h : s.Zones b) (source : Notice → Source) : (noticeMinute source s).Zones b := by
  unfold Machine.noticeMinute
  have activated : State.Zones b { s with notices := { s.notices with
      table := s.notices.table.map fun n => if n.activationDue s.cal.m then n.activate s.cal.m s.cal.second else n
      activation := s.notices.activation ++ (s.notices.table.filter (Notice.activationDue s.cal.m)).map Notice.id } } :=
    h.still ⟨rfl, rfl, rfl, rfl⟩
  exact ((((activated.still (raises_still source .noticeState Notice.id noticeActive _ _)).still
    (raises_still source .noticeState Notice.id noticeExpired _ _)).judgeTakeover).freeNotices _).judgeTakeover

theorem State.Zones.postNotice (h : s.Zones b) (f : NoticeFields) : (postNotice f s).2.Zones b := by
  unfold Machine.postNotice
  split
  · exact h
  next taken =>
    have added : ∀ u : State, u.Zones b → (addNotice (s.postedNotice f) u).Zones b := fun _ k => k.still ⟨rfl, rfl, rfl, rfl⟩
    refine State.Zones.judgeTakeover ((added _ ?_).raise _ _ _ _)
    split
    · exact (h.freeNotices _).raise _ _ _ _
    · exact h

theorem State.Zones.withdrawNotice (h : s.Zones b) (id : Nat) : (withdrawNotice id s).2.Zones b := by
  unfold Machine.withdrawNotice
  iterate 2 (split; · exact h)
  exact State.Zones.judgeTakeover (h.still ⟨rfl, rfl, rfl, rfl⟩)

/-! ### The lifecycle -/

theorem State.Zones.transitionTo (h : s.Zones b) (id : Nat) (st : ShowState) : (transitionTo id st s).Zones b := by
  have entered : ∀ (st : ShowState) {u : State}, u.Zones b → (enterState id st u).Zones b := fun st u k =>
    k.still ⟨rfl, rfl, rfl, rfl⟩
  unfold Machine.transitionTo
  cases st with
  | closed => exact (entered .closed h).still (endHolds_still _ _ _ _ _ _ _)
  | ended => exact (entered .ended (h.still (t := s.modShowing id _) ⟨rfl, rfl, rfl, rfl⟩)).retireNotices _ _
  | started => exact (entered .started h).retireDelayed _ _
  | planned => exact entered .planned h
  | onSale => exact entered .onSale h
  | seating => exact entered .seating h
  | cancelled => exact entered .cancelled h

theorem State.Zones.judgeShowing (h : s.Zones b) (n id : Nat) : (judgeShowing n id s).Zones b := by
  induction n generalizing s with
  | zero => exact h
  | succ n ih =>
    unfold Machine.judgeShowing
    split
    · exact h
    · split
      · exact h
      · exact ih (h.transitionTo id _)
      next x _ _ _ =>
        have retired := (h.raise (.showing x.id) .showingFreed x.id x.state.code).retireNotices (.showing x.id)
          (State.linkedNotices (Machine.raise (.showing x.id) .showingFreed x.id x.state.code s) x.id)
        exact State.Zones.still retired ⟨rfl, rfl, rfl, rfl⟩

theorem State.Zones.judgeAll (h : s.Zones b) : (judgeAll s).Zones b :=
  foldl_keeps (I := State.Zones b) (fun _ id k => k.judgeShowing lifeSteps id) _ h

theorem State.Zones.deliverMinute (h : s.Zones b) : (deliverMinute s).Zones b := by
  have paced : ∀ u : State, u.Zones b → (paceMinute u).Zones b := fun _ k => k.still ⟨rfl, rfl, rfl, rfl⟩
  have chosen : State.Zones b { s with choice := s.choice + 1 } := h.still ⟨rfl, rfl, rfl, rfl⟩
  unfold Machine.deliverMinute
  dsimp only
  split
  · refine paced _ ?_
    split
    · exact chosen.judgeAll.noticeMinute _
    · exact (chosen.noticeMinute _).judgeAll
  · exact paced _ (h.judgeAll.noticeMinute _)

theorem State.Zones.minuteWithExpiry (h : s.Zones b) : (minuteWithExpiry s).Zones b := by
  have chosen : State.Zones b { s with choice := s.choice + 1 } := h.still ⟨rfl, rfl, rfl, rfl⟩
  unfold Machine.minuteWithExpiry
  dsimp only
  split
  · split
    · exact (chosen.still (expireHolds_still _ _)).deliverMinute
    · exact chosen.deliverMinute.still (expireHolds_still _ _)
  · exact (h.still (expireHolds_still _ _)).deliverMinute

/-! ### The calendar -/

theorem State.Zones.setHushWake (h : s.Zones b) (hush wake : Bool) : (setHushWake hush wake s).Zones b := by
  have dated : State.Zones b { s with cal := { s.cal with hush, wake } } := h.still ⟨rfl, rfl, rfl, rfl⟩
  unfold Machine.setHushWake
  dsimp only
  split
  · exact dated
  · exact (dated.raise _ _ _ _).judgeHushAll

theorem State.Zones.calendarMinute (h : s.Zones b) : (calendarMinute s).Zones b := by
  have day : (dayStartTest s).Zones b := by
    unfold dayStartTest
    split
    · exact h.still ⟨rfl, rfl, rfl, rfl⟩
    · exact h
  unfold Machine.calendarMinute lobbyCrossing
  dsimp only
  split
  · exact day
  · split
    · exact day.setHushWake _ _
    · split
      · exact day.setHushWake _ _
      · exact day

theorem watchSecond_still (s : State) : Still s (watchSecond s) := by
  unfold watchSecond
  split
  · exact .refl s
  · split <;> exact ⟨rfl, rfl, rfl, rfl⟩

/-- A change of every panel that keeps its zone's state, its marks and its carousel keeps every view. -/
theorem State.Zones.mapPanels (h : s.Zones b) {f : Panel → Panel} (hd : f Panel.atReset = Panel.atReset)
    (hf : ∀ c, (f c).zone = c.zone ∧ (f c).hushed = c.hushed ∧ (f c).current = c.current ∧ (f c).profile = c.profile) :
    State.Zones b { s with panels := s.panels.map f } := by
  refine h.views ⟨by simpa using h.sized.panels, h.sized.plays, h.sized.links⟩ fun p => ?_
  have hpanel : State.panel { s with panels := s.panels.map f } p = f (s.panel p) := by
    unfold State.panel
    cases p with
    | zero => exact hd.symm
    | succ k =>
      simp only [slot, List.getD_eq_getElem?_getD, List.getElem?_map]
      cases s.panels[k]? with
      | none => exact hd.symm
      | some c => rfl
  obtain ⟨hzone, hhush, hcurrent, hprofile⟩ := hf (s.panel p)
  unfold State.view
  rw [hpanel, hzone, hhush, hcurrent, hprofile]
  rfl

theorem State.Zones.secondEvent (h : s.Zones b) : (secondEvent s).Zones b := by
  unfold Machine.secondEvent
  split
  next kind _ =>
    cases kind with
    | powerOn => exact h
    | pin =>
      unfold secondInReset secondInPinReset
      dsimp only
      split <;> exact h.still ⟨rfl, rfl, rfl, rfl⟩
  · have counted : (countDown { s with cal := s.cal.tick.1 }).Zones b := h.still ⟨rfl, rfl, rfl, rfl⟩
    refine State.Zones.quiet (State.Zones.mapPanels (State.Zones.still ?_ (watchSecond_still _)) rfl fun c => ?_) (settle_quiet _)
    · split
      · exact counted.still (expireHolds_still _ _)
      · exact (counted.raise .board .clockLimit 0 0).still (expireHolds_still _ _)
      · exact counted.calendarMinute.minuteWithExpiry
    · unfold Panel.second
      split <;> exact ⟨rfl, rfl, rfl, rfl⟩

theorem State.Zones.setTime (h : s.Zones b) (f : TimeFields) : (setTime f s).2.Zones b := by
  have dated : ∀ c : Calendar, State.Zones b { s with cal := c } := fun _ => h.still ⟨rfl, rfl, rfl, rfl⟩
  unfold Machine.setTime
  split
  · exact h
  · split
    · exact (dated _).setHushWake _ _
    · dsimp only
      split
      · unfold forwardJump
        refine State.Zones.setHushWake ?_ _ _
        have delivered := fun c => (dated c).deliverMinute
        split
        · exact State.Zones.still (delivered _) ⟨rfl, rfl, rfl, rfl⟩
        · exact delivered _
      · exact (dated _).setHushWake _ _

/-! ### The board -/

theorem State.Zones.boardLifecycle (h : s.Zones b) (l : LifeSettings) : (boardLifecycle l s).Zones b := by
  unfold Machine.boardLifecycle
  split
  · exact h
  · exact State.Zones.judgeAll (h.still ⟨rfl, rfl, rfl, rfl⟩)

theorem State.Zones.boardShowings (h : s.Zones b) (l : LifeSettings) (g : FigureSettings) : (boardShowings l g s).Zones b := by
  have boxed : ∀ (r : List (Source × EventRecord)) {u : State}, u.Zones b → State.Zones b { u with outbox := r } := fun _ _ k =>
    k.still ⟨rfl, rfl, rfl, rfl⟩
  have chosen : State.Zones b { s with choice := s.choice + 1 } := h.still ⟨rfl, rfl, rfl, rfl⟩
  have banded : ∀ {u : State}, u.Zones b → (boardBands (s.bandSource l) g u).Zones b := fun k => k.still (boardBands_still _ _ _)
  have joined : ∀ (c : Bool) (r : List (Source × EventRecord)) {u : State}, u.Zones b → (joinBands c r u).Zones b := fun c r u k =>
    k.still (joinBands_still c r u)
  unfold Machine.boardShowings
  dsimp only
  split
  · split
    · exact joined _ _ (boxed _ (banded (boxed _ (chosen.boardLifecycle l))))
    · exact joined _ _ ((boxed _ (banded (boxed _ chosen))).boardLifecycle l)
  · exact banded (h.boardLifecycle l)

theorem State.Zones.setBoard (h : s.Zones b) (f : BoardFields) : (setBoard f s).2.Zones b := by
  unfold Machine.setBoard
  split
  · exact h
  · have calendar : (boardCalendar f s).Zones b := by
      have dated : State.Zones b { s with cal := storeCalendar f s.cal } := h.still ⟨rfl, rfl, rfl, rfl⟩
      unfold boardCalendar
      dsimp only
      split
      · exact dated
      · exact dated.setHushWake _ _
    have judged := calendar.boardShowings (boardLife f s.life) (boardFigure f s.figure)
    dsimp only
    generalize Machine.boardShowings (boardLife f s.life) (boardFigure f s.figure) (boardCalendar f s) = u at judged ⊢
    exact judged.still ⟨rfl, rfl, rfl, rfl⟩

/-- A table with each entry changed. -/
theorem slot_map {α β : Type} (f : α → β) (d : α) (e : β) (l : List α) (n : Nat) (h : f d = e) : slot e (l.map f) n = f (slot d l n) := by
  cases n with
  | zero => exact h.symm
  | succ k =>
    simp only [slot, List.getD_eq_getElem?_getD, List.getElem?_map]
    cases l[k]? with
    | none => exact h.symm
    | some c => rfl

theorem State.Zones.emptyBoard (h : s.Zones b) : (emptyBoard s).Zones b := by
  refine ⟨⟨by simpa [Machine.emptyBoard] using h.sized.panels, by simpa [Machine.emptyBoard] using h.sized.plays, h.sized.links⟩,
    fun p hp => ?_⟩
  have hplay : (Machine.emptyBoard s).play? p = none := slot_map (fun _ => none) none none s.plays p rfl
  have range := panelNumbers_range hp
  have hpanel : (Machine.emptyBoard s).panel p = (s.panel p).cleared := by
    obtain ⟨k, rfl⟩ : ∃ k, p = k + 1 := ⟨p - 1, by omega⟩
    have hk : k < s.panels.length := by rw [h.sized.panels]; omega
    simp [State.panel, Machine.emptyBoard, slot, List.getD_eq_getElem?_getD, hk]
  refine ZoneView.fit_rest ?_ ?_ fun hpresent => ?_
  · unfold State.view
    rw [hpanel]
    rfl
  · unfold State.view
    rw [hplay]
    rfl
  · have := (h.fit p hp).1.texts hpresent
    unfold State.view at this ⊢
    rw [hpanel]
    exact this

theorem State.Zones.boardClear (h : s.Zones b) (p : Port) : (boardClear p s).2.Zones b := by
  unfold Machine.boardClear
  dsimp only
  refine (State.Zones.judgeHushAll ?_).raise _ _ _ _
  split
  · exact h.emptyBoard.setHushWake _ _
  · exact h.emptyBoard

/-! ### The showings' requests -/

theorem State.Zones.publish (h : s.Zones b) (f : PublishFields) : (publish f s).2.Zones b := by
  unfold Machine.publish
  split
  · exact h
  · refine State.Zones.judgeShowing ?_ lifeSteps _
    have inserted : State.Zones b { s with showings := insertKey Showing.id (s.publishedShowing f) s.showings } :=
      h.still ⟨rfl, rfl, rfl, rfl⟩
    have announced := (inserted.still (changeSeats_still (.seats (s.publishedShowing f).id) (s.publishedShowing f).id (fun y => y) _)).raise
      (.showing (s.publishedShowing f).id) .showingState (s.publishedShowing f).id (s.publishedShowing f).state.code
    split
    · exact announced
    · exact announced.noticeForDelay _ _

theorem State.Zones.move (h : s.Zones b) (f : MoveFields) : (move f s).2.Zones b := by
  unfold Machine.move
  split
  · exact h
  · exact h
  next x _ _ =>
    have moved : (s.modShowing x.id fun y => s.movedShowing f y).Zones b := h.still ⟨rfl, rfl, rfl, rfl⟩
    refine State.Zones.judgeShowing (State.Zones.raise ?_ _ _ _ _) lifeSteps _
    split
    · split
      · exact moved
      · exact moved.still ⟨rfl, rfl, rfl, rfl⟩
    · exact moved.still (seatChange_still _ _ _ _ _)

theorem State.Zones.delayShowing (h : s.Zones b) (id : Nat) (d : Byte) : (delayShowing id d s).2.Zones b := by
  unfold Machine.delayShowing
  split
  · exact h
  · split
    · exact h
    next x _ =>
      iterate 2 (split; · exact h)
      have told : (raiseAmendment id x.state (recomputeFast id (s.modShowing id fun y => { y with delay := delayOf d }))).Zones b :=
        h.still ⟨rfl, rfl, rfl, rfl⟩
      exact (told.noticeForDelay id (delayOf d)).judgeShowing lifeSteps id

theorem setCapacity_still (id c : Nat) (s : State) : Still s (setCapacity id c s).2 := by
  unfold setCapacity
  split
  · exact .refl s
  · split
    · exact .refl s
    · split
      · exact .refl s
      · exact (seatChange_still _ _ _ _ s).trans (u := raiseAmendment _ _ _) ⟨rfl, rfl, rfl, rfl⟩

theorem State.Zones.cancel (h : s.Zones b) (id : Nat) : (cancel id s).2.Zones b := by
  unfold Machine.cancel
  split
  · exact h
  · split
    · exact h
    · split
      · exact h
      · have moved : (s.modShowing id fun y => { y with purge := some (purgeAt (s.cal.m + s.life.linger)) }).Zones b :=
          h.still ⟨rfl, rfl, rfl, rfl⟩
        have cancelled := moved.transitionTo id .cancelled
        dsimp only
        rw [inAnyOrder_rest]
        generalize Machine.transitionTo id .cancelled (s.modShowing id fun y => { y with
          purge := some (purgeAt (s.cal.m + s.life.linger)) }) = u at cancelled ⊢
        have boxed : State.Zones b { u with outbox := [] } := cancelled.still ⟨rfl, rfl, rfl, rfl⟩
        have released : (releaseHolds (.seats id) endCancelled .cancelRelease id { u with outbox := [] }).Zones b :=
          boxed.still (endHolds_still _ _ _ _ _ _ _)
        exact State.Zones.still (released.retireDelayed (.showing id) id) ⟨rfl, rfl, rfl, rfl⟩

theorem sell_still (id n : Nat) (s : State) : Still s (sell id n s).2 := by
  unfold sell
  split
  · exact .refl s
  · split
    · exact .refl s
    · iterate 2 (split; · exact .refl s)
      exact seatChange_still _ _ _ _ s

theorem refund_still (id n : Nat) (s : State) : Still s (refund id n s).2 := by
  unfold refund
  split
  · exact .refl s
  · split
    · exact .refl s
    · exact seatChange_still _ _ _ _ s

theorem snapshot_still (id v : Nat) (s : State) : Still s (snapshot id v s).2 := by
  unfold snapshot
  split
  · exact .refl s
  · split
    · exact .refl s
    · exact seatChange_still _ _ _ _ s

theorem holdSeats_still (tag id n life : Nat) (s : State) : Still s (holdSeats tag id n life s).2 := by
  unfold holdSeats
  split
  · exact .refl s
  · refine Still.trans ?_ (seatChange_still _ _ _ _ _)
    exact ⟨rfl, rfl, rfl, rfl⟩

theorem confirm_still (tag n : Nat) (s : State) : Still s (confirm tag n s).2 := by
  unfold confirm
  split
  · exact .refl s
  · split
    · exact .refl s
    · refine Still.trans ?_ (seatChange_still _ _ _ _ _)
      exact ⟨rfl, rfl, rfl, rfl⟩

theorem releaseHold_still (tag : Nat) (s : State) : Still s (releaseHold tag s).2 := by
  unfold releaseHold
  split
  · exact .refl s
  · split
    · exact .refl s
    · refine Still.trans ?_ (seatChange_still _ _ _ _ _)
      exact ⟨rfl, rfl, rfl, rfl⟩

end Sys2Proof.Machine
end

section
/-! PROOFS of the zones' step lemma, its second half: takes, links, the requests about carousels and panels, and the step. -/

namespace Sys2Proof.Machine

variable {b : Prop} {s : State}

/-! ### Takes -/

/-- A panel set's test for a panel. -/
theorem inSet_setOf (test : Nat → Bool) {p : Nat} (hp : p ∈ panelNumbers) : inSet (setOf test) p = test p := by
  have fold : ∀ (l : List Nat) (acc : PanelSet), (∀ q ∈ l, q ∈ panelNumbers) →
      inSet (l.foldl (fun acc q => if test q then acc ||| (1#12 <<< (q - 1)) else acc) acc) p =
        (inSet acc p || (l.contains p && test p)) := by
    intro l
    induction l with
    | nil => simp
    | cons q l ih =>
      intro acc hl
      rw [List.foldl_cons, ih _ fun r hr => hl r (by simp [hr])]
      have hq := panelNumbers_range (hl q (by simp))
      have hr := panelNumbers_range hp
      have bit : inSet (acc ||| (1#12 <<< (q - 1))) p = (inSet acc p || decide (p = q)) := by
        unfold inSet
        rw [BitVec.getLsbD_or, BitVec.getLsbD_shiftLeft]
        congr 1
        have : (1#12).getLsbD (p - 1 - (q - 1)) = decide (p - 1 - (q - 1) = 0) := by
          rw [BitVec.getLsbD_one]
          simp
        rw [this]
        by_cases e : p = q
        · subst e
          simp
          omega
        · simp [e]
          omega
      by_cases e : p = q
      · subst e
        cases test p <;> simp [bit]
      · have e' : ¬ q = p := fun k => e k.symm
        cases ht : test q <;> simp [e, bit]
  have := fold panelNumbers 0 fun _ h => h
  unfold setOf
  rw [this]
  have mem : panelNumbers.contains p = true := by simpa using hp
  rw [mem, Bool.true_and]
  simp [inSet]

/-- A cue given to a panel makes its zone busy with the play's carousel. -/
theorem cuePanel_view (r : Play) (p : Nat) (h : s.Sized) (hp : p ∈ panelNumbers) (q : Nat) :
    (cuePanel r p s).view q = if q = p then { s.view p with busy := true, play := some r.carousel } else s.view q := by
  have range := panelNumbers_range hp
  unfold cuePanel
  dsimp only
  generalize (if (s.panel p).lastToken = 255 then 1 else (s.panel p).lastToken + 1) = token
  generalize hf : (fun c : Panel => { c with
    lastToken := token, zone := .cued { clip := r.clip, length := r.length, token } none }) = f
  by_cases e : q = p
  · subst e
    have hpanel : (s.modPanel q f).panel q = f (s.panel q) :=
      slot_modSlot_same _ f s.panels q range.1 (by rw [h.panels]; exact range.2)
    have hplay : ((s.modPanel q f).setPlay q (some r)).play? q = some r :=
      slot_modSlot_same _ (fun _ => some r) s.plays q range.1 (by rw [h.plays]; exact range.2)
    rw [if_pos rfl]
    unfold State.view
    rw [hplay, State.setPlay_read_panel, hpanel, ← hf]
    rfl
  · have hpanel : (s.modPanel p f).panel q = s.panel q := slot_modSlot_other _ f s.panels p q e
    have hplay : ((s.modPanel p f).setPlay p (some r)).play? q = s.play? q :=
      slot_modSlot_other _ (fun _ => some r) s.plays p q e
    rw [if_neg e]
    unfold State.view
    rw [hplay, State.setPlay_read_panel, hpanel]
    rfl

/-- A cue given to a member (R128, R148). -/
theorem State.Zones.cuePanel (h : s.Zones b) (r : Play) {p : Nat} (hp : p ∈ panelNumbers) (hm : s.member r.carousel p = true) :
    (cuePanel r p s).Zones b := by
  refine h.act (g := fun v => { v with busy := true, play := some r.carousel }) ((cuePanel_work r p s).sized h.sized)
    (cuePanel_view r p h.sized hp) fun _ => ⟨⟨rfl, fun _ => ?_, (h.fit p hp).1.texts⟩, fun _ k hk => ?_⟩
  · rw [State.member_view] at hm
    simp only [ZoneView.member, Bool.and_eq_true] at hm
    exact ⟨hm.1.1.1.2, by simpa using hm.1.2, by simpa using hm.2⟩
  · obtain rfl := Option.some.inj hk
    rw [State.member_view] at hm
    exact hm

theorem recordTake_still (k p : Nat) (found : Option (Nat × Entry)) (s : State) : Still s (recordTake k p found s) := by
  unfold recordTake
  dsimp only
  split <;> exact ⟨rfl, rfl, rfl, rfl⟩

theorem Still.member {s t : State} (h : Still s t) (k p : Nat) : t.member k p = s.member k p := by
  unfold State.member State.panel State.link State.takeover
  rw [h.panels, h.links, h.takeover]

theorem cueOf_carousel {k : Nat} {c : Carousel} {found : Option (Nat × Entry)} {m : Bool} {r : Play}
    (h : cueOf k c found m = some r) : r.carousel = k := by
  unfold cueOf at h
  split at h
  · split at h <;> cases h <;> rfl
  · split at h
    · split at h <;> cases h
      rfl
    · cases h

/-- Cues given to members, one after another. -/
theorem State.Zones.cueAll (h : s.Zones b) (r : Play) (l : List Nat) (hl : ∀ p ∈ l, p ∈ panelNumbers ∧ s.member r.carousel p = true) :
    (l.foldl (fun t p => Machine.cuePanel r p t) s).Zones b := by
  induction l generalizing s with
  | nil => exact h
  | cons p l ih =>
    obtain ⟨hp, hm⟩ := hl p (by simp)
    refine ih (h.cuePanel r hp hm) fun q hq => ⟨(hl q (by simp [hq])).1, ?_⟩
    have := (hl q (by simp [hq])).2
    rw [State.member_view] at this ⊢
    rw [cuePanel_view r p h.sized hp]
    split
    next e => rw [e] at this; exact this
    · exact this

theorem State.Zones.takeFor (h : s.Zones b) {p : Nat} (hp : p ∈ panelNumbers) : (takeFor p s).Zones b := by
  unfold Machine.takeFor
  dsimp only
  generalize (s.panel p).profile.carousel = k
  split
  next hm =>
    split
    · unfold takeSpread
      dsimp only
      have moved : ∀ g : Carousel → Carousel, Still s ((recordTake k p (s.scan (s.carousel k)) s).modCarousel k g) := fun g =>
        (recordTake_still k p _ s).trans ⟨rfl, rfl, rfl, rfl⟩
      split
      next r hr => exact (h.still (moved _)).cuePanel r hp (by rw [(moved _).member, cueOf_carousel hr]; exact hm)
      · exact h.still (moved _)
    · unfold takeLockstep
      dsimp only
      split
      · exact h
      · split
        next r hr =>
          unfold startRound
          dsimp only
          have started : ∀ g : Carousel → Carousel, Still s ((recordTake k p (s.scan (s.carousel k)) s).modCarousel k g) := fun g =>
            (recordTake_still k p _ s).trans ⟨rfl, rfl, rfl, rfl⟩
          refine (h.still (started _)).cueAll r _ fun q hq => ?_
          obtain ⟨hqn, hin⟩ := List.mem_filter.1 hq
          refine ⟨hqn, ?_⟩
          unfold State.members at hin
          rw [inSet_setOf _ hqn, (recordTake_still k p _ s).member] at hin
          rw [(started _).member, cueOf_carousel hr]
          exact hin
        · exact h.still (recordTake_still k p _ s)
  · exact h

/-- A change of a panel that keeps its zone's state, its marks and its carousel keeps every view. -/
theorem State.Zones.modPanelSame (h : s.Zones b) (p : Nat) {f : Panel → Panel}
    (hf : ∀ c, (f c).zone.busy = c.zone.busy ∧ (f c).hushed = c.hushed ∧ (f c).current = c.current ∧ (f c).profile = c.profile) :
    (s.modPanel p f).Zones b := by
  refine h.views ⟨by rw [State.modPanel, modSlot_length, h.sized.panels], h.sized.plays, h.sized.links⟩ fun q => ?_
  have hpanel : (s.modPanel p f).panel q = s.panel q ∨ (s.modPanel p f).panel q = f (s.panel q) := by
    by_cases e : q = p
    · subst e
      by_cases hr : 1 ≤ q ∧ q ≤ s.panels.length
      · exact .inr (slot_modSlot_same _ f s.panels q hr.1 hr.2)
      · refine .inl ?_
        unfold State.modPanel
        rw [modSlot_out f s.panels q (by omega)]
    · exact .inl (slot_modSlot_other _ f s.panels p q e)
  unfold State.view
  rcases hpanel with e | e
  · rw [e]
    rfl
  · obtain ⟨hzone, hhush, hcurrent, hprofile⟩ := hf (s.panel q)
    rw [e, hzone, hhush, hcurrent, hprofile]
    rfl

theorem State.Zones.compose (h : s.Zones b) (now : Nat) {p : Nat} (hp : p ∈ panelNumbers) : (compose now p s).1.Zones b := by
  have turned : (turnPanel p s).Zones b := h.modPanelSame p fun _ => ⟨rfl, rfl, rfl, rfl⟩
  have taken : (takeIfIdle p (turnPanel p s)).Zones b := by
    unfold takeIfIdle
    split
    · exact turned.takeFor hp
    · exact turned
    · exact turned
  refine taken.modPanelSame p fun c => ?_
  split <;> simp_all [Zone.busy]

/-! ### Links -/

theorem State.Zones.sendFrame (h : s.Zones b) (p : Nat) (f : Frame) : (sendFrame p f s).Zones b :=
  h.modLink p fun _ => ⟨rfl, rfl⟩

theorem State.Zones.frameAction (h : s.Zones b) (now : Nat) {p : Nat} (hp : p ∈ panelNumbers) : (frameAction now p s).Zones b := by
  unfold Machine.frameAction
  split
  · exact (h.compose now hp).sendFrame p _
  · exact (h.compose now hp).sendFrame p _
  · exact h.sendFrame p _
  · split
    · exact State.Zones.sendFrame (h.modLink p fun _ => by exact ⟨rfl, rfl⟩) p _
    · exact h.modLink p fun _ => by exact ⟨rfl, rfl⟩
  · exact h

theorem State.Zones.frameTime (h : s.Zones b) {p : Nat} (hp : p ∈ panelNumbers) : (frameTime p s).Zones b := by
  unfold Machine.frameTime
  split
  · exact h
  next n _ =>
    have reached : (reach n s).Zones b := h.still ⟨rfl, rfl, rfl, rfl⟩
    exact State.Zones.quiet ((reached.modLink p fun _ => by exact ⟨rfl, rfl⟩).frameAction n hp) (settle_quiet _)

theorem State.Zones.miss (h : s.Zones b) {p : Nat} (hp : p ∈ panelNumbers) : (miss p s).Zones b := by
  have counted : (s.modLink p fun l => { l with missRun := l.missRun + 1 }).Zones b := h.modLink p fun _ => ⟨rfl, rfl⟩
  unfold Machine.miss
  dsimp only
  split
  · split
    · exact counted.enter hp _
    · exact counted
  · split
    · exact (counted.modLink p fun _ => by exact ⟨rfl, rfl⟩).enter hp _
    · exact counted
  · exact h
  · exact h
  · exact h

theorem State.Zones.windowExpiry (h : s.Zones b) {p : Nat} (hp : p ∈ panelNumbers) : (windowExpiry p s).Zones b := by
  unfold Machine.windowExpiry
  split
  · exact h
  · have closed : (closeWindow p s).Zones b := h.modLink p fun _ => ⟨rfl, rfl⟩
    dsimp only
    refine State.Zones.quiet (State.Zones.miss ?_ hp) (settle_quiet _)
    split
    · exact closed.modLink p fun _ => ⟨rfl, rfl⟩
    · exact closed

theorem State.Zones.badShape (h : s.Zones b) {p : Nat} (hp : p ∈ panelNumbers) : (badShape p s).Zones b :=
  ((h.modLink p (f := fun l => { l with window := none }) fun _ => ⟨rfl, rfl⟩).modLink p
    (f := fun l => { l with checkFault := true }) fun _ => ⟨rfl, rfl⟩).miss hp

/-- A clip report keeps a head present. -/
theorem State.Zones.clipReport (h : s.Zones b) (p token : Nat) (r : ClipReport) :
    (clipReport p token r s).Zones b ∧ ∀ q, ((clipReport p token r s).view q).present = (s.view q).present := by
  have ended : ∀ o, (Machine.endPlay p o s).Zones b ∧ ∀ q, ((Machine.endPlay p o s).view q).present = (s.view q).present := fun o => by
    refine ⟨h.endPlay p o, fun q => ?_⟩
    rw [endPlay_view]
    split
    next e =>
      rw [e]
      unfold ZoneView.stop
      split <;> rfl
    · rfl
  have same : s.Zones b ∧ ∀ q, (s.view q).present = (s.view q).present := ⟨h, fun _ => rfl⟩
  unfold Machine.clipReport
  split
  · exact same
  next cue d hz =>
    split
    · exact same
    · split
      · exact same
      · refine ⟨?_, fun q => rfl⟩
        refine h.views ⟨by rw [State.modPanel, modSlot_length, h.sized.panels], h.sized.plays, h.sized.links⟩ fun q => ?_
        by_cases e : q = p
        · subst e
          by_cases hr : 1 ≤ q ∧ q ≤ s.panels.length
          · have := slot_modSlot_same Panel.atReset (fun c => { c with zone := .playing cue (s.core.now + 1000 * cue.length + 5000) })
              s.panels q hr.1 hr.2
            unfold State.view
            rw [show (s.modPanel q fun c => { c with zone := .playing cue (s.core.now + 1000 * cue.length + 5000) }).panel q = _
              from this, hz]
            rfl
          · unfold State.modPanel
            rw [modSlot_out _ s.panels q (by omega)]
        · unfold State.view
          rw [show (s.modPanel p fun c => { c with zone := .playing cue (s.core.now + 1000 * cue.length + 5000) }).panel q =
            s.panel q from slot_modSlot_other _ _ s.panels p q e]
          rfl
      · exact ended _
      · exact ended _
  · split
    · exact same
    · split
      · exact same
      · exact same
      · exact ended _
      · exact ended _

/-- A text acknowledged under a present head (R153, R154). -/
theorem State.Zones.takeAck (h : s.Zones b) {p : Nat} (hpres : (s.view p).present = true) (a : Nat × Nat) :
    (takeAck p s a).Zones b ∧ ((takeAck p s a).view p).present = true := by
  unfold Machine.takeAck
  split
  · refine ⟨⟨⟨by rw [State.modPanel, modSlot_length, h.sized.panels], h.sized.plays, h.sized.links⟩, fun q hq => ?_⟩, hpres⟩
    have fit := h.fit q hq
    by_cases e : q = p
    · subst e
      have range := panelNumbers_range hq
      have := slot_modSlot_same Panel.atReset (fun c => { c with current := insertId a.1 c.current }) s.panels q range.1
        (by rw [h.sized.panels]; exact range.2)
      have view : (s.modPanel q fun c => { c with current := insertId a.1 c.current }).view q =
          { s.view q with bare := (insertId a.1 (s.panel q).current).isEmpty } := by
        unfold State.view
        rw [show (s.modPanel q fun c => { c with current := insertId a.1 c.current }).panel q = _ from this]
        rfl
      rw [view]
      exact ⟨⟨fit.1.play, fit.1.free, fun hf => by rw [show (s.view q).present = false from hf] at hpres; cases hpres⟩, fit.2⟩
    · have view : (s.modPanel p fun c => { c with current := insertId a.1 c.current }).view q = s.view q := by
        unfold State.view
        rw [show (s.modPanel p fun c => { c with current := insertId a.1 c.current }).panel q = s.panel q
          from slot_modSlot_other _ _ s.panels p q e]
        rfl
      rw [view]
      exact fit
  · exact ⟨h, hpres⟩

theorem State.Zones.takeStatus (h : s.Zones b) {p : Nat} (hpres : (s.view p).present = true) (r : Report) :
    (takeStatus p r s).Zones b := by
  unfold Machine.takeStatus
  dsimp only
  obtain ⟨hc, hsame⟩ := h.clipReport p r.token r.clip
  have acked : (r.acks.foldl (Machine.takeAck p) (Machine.clipReport p r.token r.clip s)).Zones b ∧
      ((r.acks.foldl (Machine.takeAck p) (Machine.clipReport p r.token r.clip s)).view p).present = true :=
    foldl_keeps (I := fun u => State.Zones b u ∧ (u.view p).present = true) (fun _ a k => k.1.takeAck k.2 a) r.acks
      ⟨hc, by rw [hsame]; exact hpres⟩
  exact acked.1.modLink p fun _ => ⟨rfl, rfl⟩

theorem judged_present (v : ZoneView) : v.judged.present = v.present := by
  have stop : v.stop.present = v.present := by
    unfold ZoneView.stop
    split <;> rfl
  unfold ZoneView.judged
  split
  · rfl
  · split
    · rfl
    · exact stop

theorem enterHead_present {p : Nat} {head : HeadState} (hs : s.Sized) (hp : p ∈ panelNumbers) :
    ((enterHead p head s).view p).present = head.present := by
  rw [enterHead_view p head hs hp, if_pos rfl]
  unfold ZoneView.enter
  rw [judged_present]
  split
  · unfold ZoneView.stop
    dsimp only
    split <;> rfl
  · rfl

theorem State.Zones.takeReport (h : s.Zones b) {p : Nat} (hp : p ∈ panelNumbers) (r : Report)
    (hpres : (s.link p).head.present = true) : (takeReport p r s).Zones b := by
  have cleared : (s.modLink p fun l => { l with missRun := 0 }).Zones b := h.modLink p fun _ => ⟨rfl, rfl⟩
  have same : ((s.modLink p fun l => { l with missRun := 0 }).view p).present = true := by
    rw [modLink_same_view p _ (fun _ => by exact ⟨rfl, rfl⟩)]
    exact hpres
  unfold Machine.takeReport
  dsimp only
  split
  · exact (cleared.enter hp .live).takeStatus (enterHead_present cleared.sized hp) r
  · exact cleared.takeStatus same r

theorem judgeClamps_cases (p : Nat) (i : Identity) (u : State) :
    judgeClamps p i u = u ∨ ∃ d, judgeClamps p i u = raise (.link p) .layoutClamped p d u := by
  unfold judgeClamps
  exact (em _).imp (fun none => if_pos none) fun some => ⟨_, if_neg some⟩

/-- An identity may take the zone from a head: the entry into LIVE judges the membership (R128, R165). -/
theorem State.Zones.takeIdentity (h : s.Zones b) {p : Nat} (hp : p ∈ panelNumbers) (i : Identity) (r : Report) :
    (takeIdentity p i r s).Zones b := by
  have stored : ∀ q, (storeIdentity p i s).view q = if q = p then { s.view p with zoned := some i.zone == some true } else s.view q :=
    modLink_view p _ h.sized hp
  have sized : (storeIdentity p i s).Sized := modLink_sized p _ h.sized
  have loose : (storeIdentity p i s).Zones False := by
    refine ⟨sized, fun q hq => ⟨?_, False.elim⟩⟩
    rw [stored q]
    split
    · exact ⟨(h.fit p hp).1.play, (h.fit p hp).1.free, (h.fit p hp).1.texts⟩
    · exact (h.fit q hq).1
  have live : (Machine.enterHead p .live (storeIdentity p i s)).Zones b :=
    loose.enterHead hp (fun q hq e => by rw [stored q, if_neg e]; exact h.fit q hq) .live
  have pres : ((Machine.enterHead p .live (storeIdentity p i s)).view p).present = true := enterHead_present sized hp
  have told : ∀ u : State, u.Zones b → (u.view p).present = true →
      (judgeClamps p i (tellGeneration p (s.link p) i u)).Zones b ∧
        ((judgeClamps p i (tellGeneration p (s.link p) i u)).view p).present = true := fun u k hu => by
    have generation : (tellGeneration p (s.link p) i u).Zones b ∧ ((tellGeneration p (s.link p) i u).view p).present = true := by
      unfold tellGeneration
      split
      · exact ⟨k.raise _ _ _ _, hu⟩
      · exact ⟨k, hu⟩
    obtain clamped | ⟨d, clamped⟩ := judgeClamps_cases p i (tellGeneration p (s.link p) i u) <;> rw [clamped]
    · exact generation
    · exact ⟨generation.1.raise _ _ _ _, generation.2⟩
  unfold Machine.takeIdentity
  dsimp only
  split
  · obtain ⟨k, hu⟩ := told _ live pres
    exact k.takeStatus hu r
  · have stopped : ((stopZone p (Machine.enterHead p .live (storeIdentity p i s))).view p).present = true := by
      rw [stopZone_view, if_pos rfl]
      unfold ZoneView.stop
      split <;> exact pres
    obtain ⟨k, hu⟩ := told _ (live.endPlay p .stop) stopped
    exact k.takeStatus hu r

theorem State.Zones.judgeReport (h : s.Zones b) {p : Nat} (hp : p ∈ panelNumbers) (kind : FrameKind) (r : Report) :
    (judgeReport p kind r s).Zones b := by
  have marked : (setIdentity p s).Zones b := h.modLink p fun _ => ⟨rfl, rfl⟩
  unfold Machine.judgeReport
  split
  · exact marked.miss hp
  · split
    · exact marked.miss hp
    · split
      · exact marked
      · unfold takeValid
        split
        next e _ => exact h.takeReport hp r (by rw [e]; rfl)
        next e _ => exact h.takeReport hp r (by rw [e]; rfl)
        · exact (h.enter hp .seeking).takeIdentity hp _ r
        · exact (h.enter hp .seeking).takeIdentity hp _ r
        · exact h.takeIdentity hp _ r
        · exact h.takeIdentity hp _ r
        · exact h
        · exact h
        · exact h

theorem State.Zones.headReport (h : s.Zones b) {p : Nat} (hp : p ∈ panelNumbers) (bytes : List Byte) :
    (headReport p bytes s).Zones b := by
  unfold Machine.headReport
  split
  · exact h
  · split
    · exact h
    · exact State.Zones.quiet (h.badShape hp) (settle_quiet _)
    · exact State.Zones.quiet (h.badShape hp) (settle_quiet _)
    · have closed : (closeWindow p s).Zones b := h.modLink p fun _ => ⟨rfl, rfl⟩
      exact State.Zones.quiet (closed.judgeReport hp _ _) (settle_quiet _)

theorem State.Zones.zoneDeadline (h : s.Zones b) (p : Nat) : (zoneDeadline p s).Zones b := by
  have reached : ∀ n, (reach n s).Zones b := fun _ => h.still ⟨rfl, rfl, rfl, rfl⟩
  unfold Machine.zoneDeadline
  split
  · exact h
  · exact h
  · exact State.Zones.quiet ((reached _).endPlay p _) (settle_quiet _)
  · exact State.Zones.quiet ((reached _).endPlay p _) (settle_quiet _)

/-! ### The requests about carousels, texts and panels -/

theorem State.Zones.modRefs (h : s.Zones b) (k : Nat) (f : Nat → Option Nat) : (modRefs k f s).Zones b := by
  refine h.views ⟨h.sized.panels, by simpa [Machine.modRefs] using h.sized.plays, h.sized.links⟩ fun p => ?_
  have hplay : ((Machine.modRefs k f s).play? p).map Play.carousel = (s.play? p).map Play.carousel := by
    have := slot_map (fun o : Option Play => o.map fun r => if r.carousel = k then { r with ref := r.ref.bind f } else r) none none
      s.plays p rfl
    rw [show (Machine.modRefs k f s).play? p = _ from this, Option.map_map]
    show Option.map _ (s.play? p) = _
    congr 1
    funext r
    simp only [Function.comp_apply]
    split <;> rfl
  unfold State.view
  rw [hplay]
  rfl

theorem State.Zones.putEntry (h : s.Zones b) (f : EntryFields) : (putEntry f s).2.Zones b := by
  have moved : ∀ (k : Nat) (g : Carousel → Carousel), (s.modCarousel k g).Zones b := fun _ _ => h.still ⟨rfl, rfl, rfl, rfl⟩
  unfold Machine.putEntry
  split
  · exact h
  · exact h
  next how _ _ =>
    cases how with
    | append => exact moved _ _
    | insert => exact (moved _ _).modRefs _ _
    | replace => exact (moved _ _).modRefs _ _

theorem State.Zones.dropEntry (h : s.Zones b) (k p : Nat) : (dropEntry k p s).2.Zones b := by
  unfold Machine.dropEntry
  have moved : ∀ g, (s.modCarousel k g).Zones b := fun _ => h.still ⟨rfl, rfl, rfl, rfl⟩
  iterate 2 (split; · exact h)
  exact (moved _).modRefs _ _

theorem State.Zones.endModePlay (h : s.Zones b) (k p : Nat) : (endModePlay k p s).Zones b := by
  unfold Machine.endModePlay
  split
  · split
    · refine h.act (p := p) (g := fun v => { v with busy := false, play := none })
        ⟨by simp [clearZone, h.sized.panels], by simp [clearZone, State.modPanel, h.sized.plays], h.sized.links⟩ (fun q => ?_)
        fun hp => ZoneView.fit_rest rfl rfl (h.fit p hp).1.texts
      have hpanel : (clearZone p (s.setPlay p none)).panel q = if q = p then { s.panel p with zone := .idle } else s.panel q :=
        State.panel_modPanel p q _ (s.setPlay p none) rfl
      have hplay : (clearZone p (s.setPlay p none)).play? q = if q = p then none else s.play? q := State.play?_setPlay_none p q s
      unfold State.view
      rw [hpanel, hplay]
      split
      next e => rw [e]; rfl
      · rfl
    · exact h
  · exact h

theorem State.Zones.setCarousel (h : s.Zones b) (f : CarouselFields) : (setCarousel f s).2.Zones b := by
  have moved : ∀ (k : Nat) (g : Carousel → Carousel) {u : State}, u.Zones b → (u.modCarousel k g).Zones b := fun _ _ _ k =>
    k.still ⟨rfl, rfl, rfl, rfl⟩
  unfold Machine.setCarousel
  split
  · exact h
  · dsimp only
    split
    · exact moved _ _ h
    · exact foldl_keeps (I := State.Zones b) (fun _ p k => k.endModePlay _ p) panelNumbers (moved _ _ (moved _ _ h))

theorem State.Zones.clearMarks (h : s.Zones b) (id : Nat) : (clearMarks id s).Zones b := by
  refine ⟨⟨by simpa [Machine.clearMarks] using h.sized.panels, h.sized.plays, h.sized.links⟩, fun p hp => ?_⟩
  have hpanel : (Machine.clearMarks id s).panel p = { s.panel p with current := (s.panel p).current.filter fun i => i != id } :=
    slot_map _ Panel.atReset Panel.atReset s.panels p rfl
  have fit := h.fit p hp
  have view : (Machine.clearMarks id s).view p =
      { s.view p with bare := ((s.panel p).current.filter fun i => i != id).isEmpty } := by
    unfold State.view
    rw [hpanel]
    rfl
  rw [view]
  refine ⟨⟨fit.1.play, fit.1.free, fun hf => ?_⟩, fit.2⟩
  have none : (s.panel p).current = [] := by simpa [State.view] using fit.1.texts hf
  simp [none]

theorem State.Zones.putText (h : s.Zones b) (p : Port) (id : Nat) (bytes : List Byte) : (putText p id bytes s).2.Zones b := by
  unfold Machine.putText
  have stored : ∀ e, (s.setText id e).Zones b := fun _ => h.still ⟨rfl, rfl, rfl, rfl⟩
  iterate 2 (split; · exact h)
  exact (stored _).clearMarks id

theorem State.Zones.dropText (h : s.Zones b) (p : Port) (id : Nat) : (dropText p id s).2.Zones b := by
  unfold Machine.dropText
  have stored : ∀ e, (s.setText id e).Zones b := fun _ => h.still ⟨rfl, rfl, rfl, rfl⟩
  iterate 4 (split; · exact h)
  exact (stored _).clearMarks id

/-- A profile replaced may end a membership, which is judged last (R128, R139). -/
theorem State.Zones.setPanel (h : s.Zones b) (f : PanelFields) : (setPanel f s).2.Zones b := by
  unfold Machine.setPanel
  split
  · exact h
  next good =>
    dsimp only
    generalize hp : f.panel.toNat = p
    have mem : p ∈ panelNumbers := by
      simp only [panelMalformed, panelBad, Bool.or_eq_true, not_or] at good
      have := good.1.1.1.1.1.1.1
      simp only [panelNumbers, List.mem_cons, List.not_mem_nil, or_false]
      simp at this
      omega
    have range := panelNumbers_range mem
    generalize profileOf f = q
    have view : ∀ i, (s.modPanel p (Panel.withProfile q)).view i =
        if i = p then { s.view p with carousel := q.carousel } else s.view i := fun i => by
      unfold State.view
      split
      next e =>
        subst e
        rw [show (s.modPanel i (Panel.withProfile q)).panel i = _ from
          slot_modSlot_same _ _ s.panels i range.1 (by rw [h.sized.panels]; exact range.2)]
        rfl
      next e =>
        rw [show (s.modPanel p (Panel.withProfile q)).panel i = _ from slot_modSlot_other _ _ s.panels p i e]
        rfl
    have sized : (s.modPanel p (Panel.withProfile q)).Sized :=
      ⟨by rw [State.modPanel, modSlot_length, h.sized.panels], h.sized.plays, h.sized.links⟩
    have others : ∀ i ∈ panelNumbers, i ≠ p → ((s.modPanel p (Panel.withProfile q)).view i).Fit b := fun i hi e => by
      rw [view i, if_neg e]
      exact h.fit i hi
    have loose : (s.modPanel p (Panel.withProfile q)).Zones False := by
      refine ⟨sized, fun i hi => ⟨?_, False.elim⟩⟩
      rw [view i]
      split
      · exact ⟨(h.fit p mem).1.play, (h.fit p mem).1.free, (h.fit p mem).1.texts⟩
      · exact (h.fit i hi).1
    have entered : ∀ (g : LinkContext → LinkContext), (∀ l, (g l).head = l.head ∧ (g l).zonePresent = l.zonePresent) → ∀ head,
        (Machine.enterHead p head ((s.modPanel p (Panel.withProfile q)).modLink p g)).Zones b := fun g hg head =>
      (loose.modLink p hg).enterHead mem (fun i hi e => by rw [modLink_same_view p g hg]; exact others i hi e) head
    have judged : ∀ u : State, u.Zones b → (Machine.judgeMember p (Machine.judgeHush p u)).Zones b := fun u k =>
      (k.judgeHush mem).judgeMember p
    have kept : (Machine.judgeMember p (Machine.judgeHush p (s.modPanel p (Panel.withProfile q)))).Zones b := by
      have hushed := loose.judgeHush mem
      refine ⟨(judgeMember_work p _).sized hushed.sized, fun i hi => ?_⟩
      rw [judgeMember_view]
      split
      · exact ZoneView.judged_fit (hushed.fit p mem).1
      next e =>
        rw [judgeHush_view p _ (by rw [sized.panels]; exact range), if_neg e]
        exact others i hi e
    unfold handEnabled
    split
    · exact judged _ (entered _ (fun _ => by exact ⟨rfl, rfl⟩) _)
    · exact judged _ (entered _ (fun _ => by exact ⟨rfl, rfl⟩) _)
    · exact kept
    · exact kept

theorem State.Zones.queryPanel (h : s.Zones b) (p : Nat) : (queryPanel p s).2.Zones b := by
  unfold Machine.queryPanel
  split
  · exact h
  · exact h.modLink p fun _ => ⟨rfl, rfl⟩

/-! ### The Catalogue's requests -/

theorem putAuditorium_still (a name cap : Nat) (s : State) : Still s (putAuditorium a name cap s).2 := by
  unfold putAuditorium
  iterate 2 (split; · exact .refl s)
  exact ⟨rfl, rfl, rfl, rfl⟩

theorem dropAuditorium_still (a : Nat) (s : State) : Still s (dropAuditorium a s).2 := by
  unfold dropAuditorium
  iterate 3 (split; · exact .refl s)
  exact ⟨rfl, rfl, rfl, rfl⟩

theorem setAudState_still (a : Nat) (st : AudState) (s : State) : Still s (setAudState a st s).2 := by
  unfold setAudState
  iterate 2 (split; · exact .refl s)
  exact ⟨rfl, rfl, rfl, rfl⟩

theorem putFeature_still (f title rating run : Nat) (s : State) : Still s (putFeature f title rating run s).2 := by
  unfold putFeature
  iterate 2 (split; · exact .refl s)
  exact ⟨rfl, rfl, rfl, rfl⟩

theorem dropFeature_still (f : Nat) (s : State) : Still s (dropFeature f s).2 := by
  unfold dropFeature
  iterate 3 (split; · exact .refl s)
  exact ⟨rfl, rfl, rfl, rfl⟩

/-! ### The step -/

theorem request_zones (t : Txn) (n kind : Nat) (roles : List Role) {body : State → Answer × State}
    (h : ∀ u, u.Zones b → (body u).2.Zones b) (hs : s.Zones b) : (request t n kind roles body s).Zones b :=
  request_carries (I := State.Zones b) (fun _ _ q k => k.quiet q) h hs

/-- What both resets leave. -/
theorem zones_reset {t : State} (hplays : t.plays = List.replicate 12 none) (hpanels : t.panels = List.replicate 12 Panel.atReset)
    (hlinks : t.links = List.replicate 12 LinkContext.atReset) : t.Zones b := by
  obtain ⟨zoned, played⟩ := zones_of_reset hplays hpanels
  refine ⟨⟨by rw [hpanels]; rfl, by rw [hplays]; rfl, by rw [hlinks]; rfl⟩, fun p hp => ⟨(t.zoneFits_view p).1 (zoned p hp), fun _ k hk => ?_⟩⟩
  obtain ⟨r, hr, rfl⟩ := Option.map_eq_some_iff.1 hk
  rw [← State.member_view]
  exact played p r hr

theorem releaseReset_zones (kind : ResetKind) (h : s.Zones b) : (releaseReset kind s).Zones b := by
  obtain ⟨r, e⟩ := releaseReset_eq kind s
  have released : s.atRelease.Zones b := h.still ⟨rfl, rfl, rfl, rfl⟩
  have judged := released.judgeHushAll
  rw [e]
  generalize judgeHushAll s.atRelease = t at judged ⊢
  exact judged.still ⟨rfl, rfl, rfl, rfl⟩

theorem exec_zones {c : Instr} {t : State} (h : s.Zones b) (ht : exec c s = .next t) : t.Zones b := by
  have second := h.secondEvent
  cases c <;> obtain rfl := Host.Outcome.next.inj ht
  case powerOnReset => exact zones_reset rfl rfl rfl
  case pinReset => exact zones_reset rfl rfl rfl
  case resetRelease => split; exacts [h, releaseReset_zones _ h]
  case secondEvent => exact second
  case dwellExpiry => split; exacts [second, h]
  case holdExpiry => split; exacts [second, h]
  case salesStale => split; exacts [second, h]
  case minuteEvent => split; exacts [second, h]
  case midnightEvent => split; exacts [second, h]
  case flashTick => split; exacts [h, h.still ⟨rfl, rfl, rfl, rfl⟩]
  case frameTime p => exact h.frameTime (panelOf_mem p)
  case lostIdentify p => split; exacts [h.frameTime (panelOf_mem p), h]
  case replyWindowExpiry p => exact h.windowExpiry (panelOf_mem p)
  case headReport p bytes => exact h.headReport (panelOf_mem p) bytes
  case reportLengthFailure p n =>
    split
    · exact h
    · split
      · exact State.Zones.quiet (h.badShape (panelOf_mem p)) (settle_quiet _)
      · exact h
  case zoneDeadline p => exact h.zoneDeadline _
  case emptyTransaction => split <;> exact h.quiet (modPort_quiet _ _ s)
  case malformedMessage =>
    split
    · exact h
    · exact transaction_carries (I := State.Zones b) (fun _ _ q k => k.quiet q) (fun _ k => k) h
  case nothing => exact transaction_carries (I := State.Zones b) (fun _ _ q k => k.quiet q) (fun _ k => k) h
  case readEvents => exact request_zones _ _ _ _ (fun u k => k.still ⟨rfl, rfl, rfl, rfl⟩) h
  case setFilter =>
    refine request_zones _ _ _ _ (fun u k => ?_) h
    unfold setFilter
    split
    · exact k
    · exact k.still ⟨rfl, rfl, rfl, rfl⟩
  case queryBoard => exact request_zones _ _ _ _ (fun u k => k) h
  case queryShowing => exact request_zones _ _ _ _ (fun u k => by rw [queryShowing_state]; exact k) h
  case queryHold => exact request_zones _ _ _ _ (fun u k => by rw [queryHold_state]; exact k) h
  case queryNotice => exact request_zones _ _ _ _ (fun u k => by rw [queryNotice_state]; exact k) h
  case queryCarousel => exact request_zones _ _ _ _ (fun u k => by rw [queryCarousel_state]; exact k) h
  case queryPanel => exact request_zones _ _ _ _ (fun u k => k.queryPanel _) h
  case setTime f => exact request_zones _ _ _ _ (fun u k => k.setTime f) h
  case wake => exact request_zones _ _ _ _ (fun u k => k.setHushWake _ _) h
  case setBoard f => exact request_zones _ _ _ _ (fun u k => k.setBoard f) h
  case boardClear => exact request_zones _ _ _ _ (fun u k => k.boardClear _) h
  case putAuditorium a name cap => exact request_zones _ _ _ _ (fun u k => k.still (putAuditorium_still _ _ _ u)) h
  case dropAuditorium => exact request_zones _ _ _ _ (fun u k => k.still (dropAuditorium_still _ u)) h
  case suspendAuditorium => exact request_zones _ _ _ _ (fun u k => k.still (setAudState_still _ _ u)) h
  case resumeAuditorium => exact request_zones _ _ _ _ (fun u k => k.still (setAudState_still _ _ u)) h
  case putFeature => exact request_zones _ _ _ _ (fun u k => k.still (putFeature_still _ _ _ _ u)) h
  case dropFeature => exact request_zones _ _ _ _ (fun u k => k.still (dropFeature_still _ u)) h
  case putText => exact request_zones _ _ _ _ (fun u k => k.putText _ _ _) h
  case dropText => exact request_zones _ _ _ _ (fun u k => k.dropText _ _) h
  case publish f => exact request_zones _ _ _ _ (fun u k => k.publish f) h
  case move f => exact request_zones _ _ _ _ (fun u k => k.move f) h
  case delay d => exact request_zones _ _ _ _ (fun u k => k.delayShowing _ d) h
  case setCapacity => exact request_zones _ _ _ _ (fun u k => k.still (setCapacity_still _ _ u)) h
  case cancel => exact request_zones _ _ _ _ (fun u k => k.cancel _) h
  case sell => exact request_zones _ _ _ _ (fun u k => k.still (sell_still _ _ u)) h
  case refund => exact request_zones _ _ _ _ (fun u k => k.still (refund_still _ _ u)) h
  case snapshot => exact request_zones _ _ _ _ (fun u k => k.still (snapshot_still _ _ u)) h
  case hold => exact request_zones _ _ _ _ (fun u k => k.still (holdSeats_still _ _ _ _ u)) h
  case confirm => exact request_zones _ _ _ _ (fun u k => k.still (confirm_still _ _ u)) h
  case release => exact request_zones _ _ _ _ (fun u k => k.still (releaseHold_still _ u)) h
  case readJournal => exact request_zones _ _ _ _ (fun u k => by rw [readJournal_state]; exact k) h
  case swapJournal => exact request_zones _ _ _ _ (fun u k => k.still ⟨rfl, rfl, rfl, rfl⟩) h
  case postNotice f => exact request_zones _ _ _ _ (fun u k => k.postNotice f) h
  case withdrawNotice => exact request_zones _ _ _ _ (fun u k => k.withdrawNotice _) h
  case putEntry f => exact request_zones _ _ _ _ (fun u k => k.putEntry f) h
  case dropEntry => exact request_zones _ _ _ _ (fun u k => k.dropEntry _ _) h
  case setCarousel f => exact request_zones _ _ _ _ (fun u k => k.setCarousel f) h
  case setPanel f => exact request_zones _ _ _ _ (fun u k => k.setPanel f) h
  case chipSelectAssertion => exact h.quiet (modPort_quiet _ _ s)

theorem step_zones {t : State} (h : s.Zones b) (ht : step s = .next t) : t.Zones b :=
  step_keeps (I := State.Zones b) (fun _ _ k => k.still ⟨rfl, rfl, rfl, rfl⟩) (fun _ _ k => k.still ⟨rfl, rfl, rfl, rfl⟩)
    (fun _ _ _ k hc => exec_zones k hc) h ht

/-- Settles O60: every command keeps the panels' views fit (`exec_zones`), with the membership of the plays where it held before. -/
theorem everyStepKeepsTheZones : Obligations.EveryStepKeepsTheZones := by
  unfold Obligations.EveryStepKeepsTheZones
  have sized : ∀ {s : State}, s.Shape → s.Sized := fun h => ⟨h.panels, h.plays, h.links⟩
  refine ⟨fun s t hs hz ht => ?_, fun s t hs hz hp ht => ?_⟩
  · have start : s.Zones False := ⟨sized hs, fun p hm => ⟨(s.zoneFits_view p).1 (hz p hm), False.elim⟩⟩
    exact fun p hm => (t.zoneFits_view p).2 ((step_zones start ht).fit p hm).1
  · have start : s.Zones True := ⟨sized hs, fun p hm => ⟨(s.zoneFits_view p).1 (hz p hm), fun _ k hk => by
      obtain ⟨r, hr, rfl⟩ := Option.map_eq_some_iff.1 hk
      rw [← State.member_view]
      exact hp p r hr⟩⟩
    have kept := step_zones start ht
    intro p r hr
    have mem : p ∈ panelNumbers := by
      by_contra out
      have none : t.play? p = none := by
        cases p with
        | zero => rfl
        | succ k =>
          refine List.getD_eq_default _ _ ?_
          rw [kept.sized.plays]
          simp only [panelNumbers, List.mem_cons, List.not_mem_nil, or_false, not_or] at out
          omega
      rw [none] at hr
      cases hr
    rw [State.member_view]
    exact (kept.fit p mem).2 trivial r.carousel (by unfold State.view; rw [hr]; rfl)

end Sys2Proof.Machine
end

section
/-! PROOFS. Transactions without effects (spec/10): what a message heard leaves as it stands, requests untaken, foreign and refused,
and the reply slot (R173 to R179). -/

namespace Sys2Proof.Machine

/-! ### A message heard -/

section
variable (t : Txn) (n : Nat) {s : State} (h : s.Settled)
include h

/-- Two states that a message heard may lead between: everything but the ports, the sales watch, the queues and the choices is kept. -/
theorem heard_eq : heard t n s = { s with
    ports := (heard t n s).ports, watch := (heard t n s).watch, queues := (heard t n s).queues, choice := (heard t n s).choice } := by
  obtain ⟨w, q, c, e⟩ := heard_frame t n h
  rw [e]

theorem heard_cal : (heard t n s).cal = s.cal := by rw [heard_eq t n h]
theorem heard_rstn : (heard t n s).rstn = s.rstn := by rw [heard_eq t n h]
theorem heard_core : (heard t n s).core = s.core := by rw [heard_eq t n h]
theorem heard_life : (heard t n s).life = s.life := by rw [heard_eq t n h]
theorem heard_figure : (heard t n s).figure = s.figure := by rw [heard_eq t n h]
theorem heard_framePeriod : (heard t n s).framePeriod = s.framePeriod := by rw [heard_eq t n h]
theorem heard_catalogue : (heard t n s).catalogue = s.catalogue := by rw [heard_eq t n h]
theorem heard_showings : (heard t n s).showings = s.showings := by rw [heard_eq t n h]
theorem heard_holds : (heard t n s).holds = s.holds := by rw [heard_eq t n h]
theorem heard_notices : (heard t n s).notices = s.notices := by rw [heard_eq t n h]
theorem heard_panels : (heard t n s).panels = s.panels := by rw [heard_eq t n h]
theorem heard_links : (heard t n s).links = s.links := by rw [heard_eq t n h]

theorem heard_showing? (i : Nat) : (heard t n s).showing? i = s.showing? i := congrArg (findKey _ i) (heard_showings t n h)
theorem heard_hold? (i : Nat) : (heard t n s).hold? i = s.hold? i := congrArg (findKey _ i) (heard_holds t n h)
theorem heard_notice? (i : Nat) : (heard t n s).notice? i = s.notice? i :=
  congrArg (fun u : NoticeUnit => findKey Notice.id i u.table) (heard_notices t n h)
theorem heard_auditorium (i : Nat) : (heard t n s).auditorium i = s.auditorium i :=
  congrArg (fun c : Catalogue => slot Auditorium.undefined c.auditoriums i) (heard_catalogue t n h)
theorem heard_feature? (i : Nat) : (heard t n s).feature? i = s.feature? i :=
  congrArg (fun c : Catalogue => slot none c.features i) (heard_catalogue t n h)
theorem heard_text (i : Nat) : (heard t n s).text i = s.text i :=
  congrArg (fun c : Catalogue => slot TextEntry.absent c.texts i) (heard_catalogue t n h)
theorem heard_panel (i : Nat) : (heard t n s).panel i = s.panel i := congrArg (slot _ · i) (heard_panels t n h)
theorem heard_link (i : Nat) : (heard t n s).link i = s.link i := congrArg (slot _ · i) (heard_links t n h)
theorem heard_takeover (i : Nat) : (heard t n s).takeover i = s.takeover i :=
  congrArg (fun u : NoticeUnit => slot none u.takeover i) (heard_notices t n h)

end

/-! ### Requests untaken, foreign and refused -/

/-- A request of a role that may not issue it is answered ROLE, and its rule is not carried out (R176). -/
theorem request_foreign {t : Txn} {s : State} (h : s.takes t.port = true) (hs : s.Settled) (n kind : Nat) {roles : List Role}
    (hr : (s.port t.port).role ∉ roles) (body : State → Answer × State) :
    request t n kind roles body s = replied t kind (refuse .role) (heard t n s) := by
  have foreign : ((signOfLife t.port (s.modPort t.port (clockOut (n + t.surplus)))).port t.port).role ∉ roles := by
    rw [show ((signOfLife t.port (s.modPort t.port (clockOut (n + t.surplus)))).port t.port).role = _ from heard_role t n hs t.port]
    exact hr
  simp only [request, transaction, h, foreign, ite_true, ite_false]
  exact congrArg (State.modPort t.port _) (settle_settled (heard_settled t n hs))

/-- The rule of a request that leaves the state alone where it answers anything but DONE, and then sends no data. -/
def Refusing (body : State → Answer × State) : Prop := ∀ s, (body s).1.result = .done ∨ ∃ r, body s = (refuse r, s)

/-- What exec makes of a request other than NOTHING: its rule, under the kind code and the roles of R176. -/
def RequestForm (i : Instr) : Prop :=
  ∀ t kind b, Wire.fieldsOf i = some (t, kind, b) → kind ≠ 1 →
    ∃ body, Refusing body ∧ ∀ s, exec i s = .next (request t (b.length + 2) kind (rolesOf kind) body s)

theorem requestForm_of {i : Instr} {r : Txn × Nat × List Byte} {body : State → Answer × State} (h : Wire.fieldsOf i = some r)
    (hb : Refusing body) (e : ∀ s, exec i s = .next (request r.1 (r.2.2.length + 2) r.2.1 (rolesOf r.2.1) body s)) :
    RequestForm i := by
  intro t kind b hf _
  obtain rfl : r = (t, kind, b) := Option.some_injective _ (h.symm.trans hf)
  exact ⟨body, hb, e⟩

theorem requestForm_none {i : Instr} (h : Wire.fieldsOf i = none) : RequestForm i := by
  intro t kind b hf
  rw [h] at hf
  cases hf

theorem requestForm_nothing (t : Txn) : RequestForm (.nothing t) := by
  intro u kind b hf hk
  cases hf
  exact absurd rfl hk

theorem Refusing.done_of {body : State → Answer × State} (h : ∀ s, (body s).1.result = .done) : Refusing body := fun s => .inl (h s)

theorem setFilter_refusing (p : Port) (l : List (Byte × Half)) : Refusing (setFilter p l) := fun s => by
  unfold setFilter
  split
  · exact .inr ⟨_, rfl⟩
  · exact .inl rfl

theorem queryShowing_refusing (id : Nat) : Refusing (queryShowing id) := fun s => by
  unfold queryShowing
  iterate 2 (split; · exact .inr ⟨_, rfl⟩)
  exact .inl rfl

theorem queryHold_refusing (tag : Nat) : Refusing (queryHold tag) := fun s => by
  unfold queryHold
  iterate 2 (split; · exact .inr ⟨_, rfl⟩)
  exact .inl rfl

theorem queryNotice_refusing (id : Nat) : Refusing (queryNotice id) := fun s => by
  unfold queryNotice
  split
  · exact .inl rfl
  · split
    · exact .inr ⟨_, rfl⟩
    · exact .inl rfl

theorem queryCarousel_refusing (k start : Nat) : Refusing (queryCarousel k start) := fun s => by
  unfold queryCarousel
  split
  · exact .inr ⟨_, rfl⟩
  · exact .inl rfl

theorem queryPanel_refusing (p : Nat) : Refusing (queryPanel p) := fun s => by
  unfold queryPanel
  split
  · exact .inr ⟨_, rfl⟩
  · exact .inl rfl

theorem setTime_refusing (f : TimeFields) : Refusing (setTime f) := fun s => by
  unfold setTime
  split
  · exact .inr ⟨_, rfl⟩
  · split <;> exact .inl rfl

theorem setBoard_refusing (f : BoardFields) : Refusing (setBoard f) := fun s => by
  unfold setBoard
  split
  · exact .inr ⟨_, rfl⟩
  · exact .inl rfl

theorem putAuditorium_refusing (a n c : Nat) : Refusing (putAuditorium a n c) := fun s => by
  unfold putAuditorium
  iterate 2 (split; · exact .inr ⟨_, rfl⟩)
  exact .inl rfl

theorem dropAuditorium_refusing (a : Nat) : Refusing (dropAuditorium a) := fun s => by
  unfold dropAuditorium
  iterate 3 (split; · exact .inr ⟨_, rfl⟩)
  exact .inl rfl

theorem setAudState_refusing (a : Nat) (state : AudState) : Refusing (setAudState a state) := fun s => by
  unfold setAudState
  iterate 2 (split; · exact .inr ⟨_, rfl⟩)
  exact .inl rfl

theorem putFeature_refusing (f title rating run : Nat) : Refusing (putFeature f title rating run) := fun s => by
  unfold putFeature
  iterate 2 (split; · exact .inr ⟨_, rfl⟩)
  exact .inl rfl

theorem dropFeature_refusing (f : Nat) : Refusing (dropFeature f) := fun s => by
  unfold dropFeature
  iterate 3 (split; · exact .inr ⟨_, rfl⟩)
  exact .inl rfl

theorem putText_refusing (p : Port) (id : Nat) (bytes : List Byte) : Refusing (putText p id bytes) := fun s => by
  unfold putText
  iterate 2 (split; · exact .inr ⟨_, rfl⟩)
  exact .inl rfl

theorem dropText_refusing (p : Port) (id : Nat) : Refusing (dropText p id) := fun s => by
  unfold dropText
  iterate 4 (split; · exact .inr ⟨_, rfl⟩)
  exact .inl rfl

theorem publish_refusing (f : PublishFields) : Refusing (publish f) := fun s => by
  unfold publish
  split
  · exact .inr ⟨_, rfl⟩
  · exact .inl rfl

theorem move_refusing (f : MoveFields) : Refusing (move f) := fun s => by
  unfold move
  split
  · exact .inr ⟨_, rfl⟩
  · exact .inr ⟨_, rfl⟩
  · exact .inl rfl

theorem delayShowing_refusing (id : Nat) (d : Byte) : Refusing (delayShowing id d) := fun s => by
  unfold delayShowing
  iterate 4 (split; · exact .inr ⟨_, rfl⟩)
  exact .inl rfl

theorem setCapacity_refusing (id c : Nat) : Refusing (setCapacity id c) := fun s => by
  unfold setCapacity
  iterate 3 (split; · exact .inr ⟨_, rfl⟩)
  exact .inl rfl

theorem cancel_refusing (id : Nat) : Refusing (cancel id) := fun s => by
  unfold cancel
  iterate 3 (split; · exact .inr ⟨_, rfl⟩)
  exact .inl rfl

theorem sell_refusing (id n : Nat) : Refusing (sell id n) := fun s => by
  unfold sell
  iterate 4 (split; · exact .inr ⟨_, rfl⟩)
  exact .inl rfl

theorem refund_refusing (id n : Nat) : Refusing (refund id n) := fun s => by
  unfold refund
  iterate 2 (split; · exact .inr ⟨_, rfl⟩)
  exact .inl rfl

theorem snapshot_refusing (id v : Nat) : Refusing (snapshot id v) := fun s => by
  unfold snapshot
  iterate 2 (split; · exact .inr ⟨_, rfl⟩)
  exact .inl rfl

theorem holdSeats_refusing (tag id n life : Nat) : Refusing (holdSeats tag id n life) := fun s => by
  unfold holdSeats
  split
  · exact .inr ⟨_, rfl⟩
  · exact .inl rfl

theorem confirm_refusing (tag n : Nat) : Refusing (confirm tag n) := fun s => by
  unfold confirm
  iterate 2 (split; · exact .inr ⟨_, rfl⟩)
  exact .inl rfl

theorem releaseHold_refusing (tag : Nat) : Refusing (releaseHold tag) := fun s => by
  unfold releaseHold
  iterate 2 (split; · exact .inr ⟨_, rfl⟩)
  exact .inl rfl

theorem readJournal_refusing (start count : Nat) : Refusing (readJournal start count) := fun s => by
  unfold readJournal
  split
  · exact .inr ⟨_, rfl⟩
  · exact .inl rfl

theorem postNotice_refusing (f : NoticeFields) : Refusing (postNotice f) := fun s => by
  unfold postNotice
  split
  · exact .inr ⟨_, rfl⟩
  · exact .inl rfl

theorem withdrawNotice_refusing (id : Nat) : Refusing (withdrawNotice id) := fun s => by
  unfold withdrawNotice
  iterate 2 (split; · exact .inr ⟨_, rfl⟩)
  exact .inl rfl

theorem putEntry_refusing (f : EntryFields) : Refusing (putEntry f) := fun s => by
  unfold putEntry
  split
  · exact .inr ⟨_, rfl⟩
  · exact .inr ⟨_, rfl⟩
  · exact .inl rfl

theorem dropEntry_refusing (k p : Nat) : Refusing (dropEntry k p) := fun s => by
  unfold dropEntry
  iterate 2 (split; · exact .inr ⟨_, rfl⟩)
  exact .inl rfl

theorem setCarousel_refusing (f : CarouselFields) : Refusing (setCarousel f) := fun s => by
  unfold setCarousel
  split
  · exact .inr ⟨_, rfl⟩
  · exact .inl rfl

theorem setPanel_refusing (f : PanelFields) : Refusing (setPanel f) := fun s => by
  unfold setPanel
  split
  · exact .inr ⟨_, rfl⟩
  · exact .inl rfl

theorem pairBytes_length (l : List (Byte × Half)) : (Wire.pairBytes l).length = 3 * l.length := by
  induction l with
  | nil => rfl
  | cons x l ih => simp only [Wire.pairBytes, Wire.halfBytes, List.length_cons, List.length_append, ih, List.length_nil]; omega

/-- Every request but NOTHING is its rule under R176's roles. -/
theorem requestForm (i : Instr) : RequestForm i := by
  cases i with
  | nothing t => exact requestForm_nothing t
  | readEvents t n => exact requestForm_of rfl (.done_of fun _ => rfl) fun _ => rfl
  | setFilter t l =>
    refine requestForm_of rfl (setFilter_refusing t.port l) fun s => ?_
    rw [show (BitVec.ofNat 8 l.length :: Wire.pairBytes l).length + 2 = 3 + 3 * l.length by
      rw [List.length_cons, pairBytes_length]; omega]
    rfl
  | queryBoard t => exact requestForm_of rfl (.done_of fun _ => rfl) fun _ => rfl
  | queryShowing t id => exact requestForm_of rfl (queryShowing_refusing _) fun _ => rfl
  | queryHold t tag => exact requestForm_of rfl (queryHold_refusing _) fun _ => rfl
  | queryNotice t id => exact requestForm_of rfl (queryNotice_refusing _) fun _ => rfl
  | queryCarousel t k start => exact requestForm_of rfl (queryCarousel_refusing _ _) fun _ => rfl
  | queryPanel t p => exact requestForm_of rfl (queryPanel_refusing _) fun _ => rfl
  | setTime t f => exact requestForm_of rfl (setTime_refusing _) fun _ => rfl
  | wake t => exact requestForm_of rfl (.done_of fun _ => rfl) fun _ => rfl
  | setBoard t f => exact requestForm_of rfl (setBoard_refusing _) fun _ => rfl
  | boardClear t => exact requestForm_of rfl (.done_of fun _ => rfl) fun _ => rfl
  | putAuditorium t a n c => exact requestForm_of rfl (putAuditorium_refusing _ _ _) fun _ => rfl
  | dropAuditorium t a => exact requestForm_of rfl (dropAuditorium_refusing _) fun _ => rfl
  | suspendAuditorium t a => exact requestForm_of rfl (setAudState_refusing _ _) fun _ => rfl
  | resumeAuditorium t a => exact requestForm_of rfl (setAudState_refusing _ _) fun _ => rfl
  | putFeature t f n r m => exact requestForm_of rfl (putFeature_refusing _ _ _ _) fun _ => rfl
  | dropFeature t f => exact requestForm_of rfl (dropFeature_refusing _) fun _ => rfl
  | putText t id b =>
    refine requestForm_of rfl (putText_refusing t.port id.toNat b) fun s => ?_
    rw [show (Wire.halfBytes id ++ BitVec.ofNat 8 b.length :: b).length + 2 = 5 + b.length by
      simp only [Wire.halfBytes, List.length_append, List.length_cons, List.length_nil]; omega]
    rfl
  | dropText t id => exact requestForm_of rfl (dropText_refusing _ _) fun _ => rfl
  | publish t f => exact requestForm_of rfl (publish_refusing _) fun _ => rfl
  | move t f => exact requestForm_of rfl (move_refusing _) fun _ => rfl
  | delay t id d => exact requestForm_of rfl (delayShowing_refusing _ _) fun _ => rfl
  | setCapacity t id c => exact requestForm_of rfl (setCapacity_refusing _ _) fun _ => rfl
  | cancel t id => exact requestForm_of rfl (cancel_refusing _) fun _ => rfl
  | sell t id n => exact requestForm_of rfl (sell_refusing _ _) fun _ => rfl
  | refund t id n => exact requestForm_of rfl (refund_refusing _ _) fun _ => rfl
  | snapshot t id v => exact requestForm_of rfl (snapshot_refusing _ _) fun _ => rfl
  | hold t tag id n l => exact requestForm_of rfl (holdSeats_refusing _ _ _ _) fun _ => rfl
  | confirm t tag n => exact requestForm_of rfl (confirm_refusing _ _) fun _ => rfl
  | release t tag => exact requestForm_of rfl (releaseHold_refusing _) fun _ => rfl
  | readJournal t i n => exact requestForm_of rfl (readJournal_refusing _ _) fun _ => rfl
  | swapJournal t => exact requestForm_of rfl (.done_of fun _ => rfl) fun _ => rfl
  | postNotice t f => exact requestForm_of rfl (postNotice_refusing _) fun _ => rfl
  | withdrawNotice t id => exact requestForm_of rfl (withdrawNotice_refusing _) fun _ => rfl
  | putEntry t f => exact requestForm_of rfl (putEntry_refusing _) fun _ => rfl
  | dropEntry t c p => exact requestForm_of rfl (dropEntry_refusing _ _) fun _ => rfl
  | setCarousel t f => exact requestForm_of rfl (setCarousel_refusing _) fun _ => rfl
  | setPanel t f => exact requestForm_of rfl (setPanel_refusing _) fun _ => rfl
  | powerOnReset | pinReset | resetRelease | secondEvent | dwellExpiry | holdExpiry | salesStale | minuteEvent | midnightEvent
  | flashTick | frameTime | lostIdentify | replyWindowExpiry | headReport | reportLengthFailure | zoneDeadline | emptyTransaction
  | malformedMessage | chipSelectAssertion => exact requestForm_none rfl

theorem fieldsOf_nothing {i : Instr} {t : Txn} {b : List Byte} (h : Wire.fieldsOf i = some (t, 1, b)) : i = .nothing t := by
  cases i <;> cases h
  rfl

theorem mem_rolesOf_nothing (r : Role) : r ∈ rolesOf 1 := by cases r <;> decide

/-- A transaction that its port does not take releases chip-select and does nothing else (R183). -/
theorem transaction_untaken {p : Port} {s : State} (h : s.takes p = false) (n : Nat) (handle : State → Option Reply × State) :
    transaction p n handle s = s.modPort p deselect := by
  simp [transaction, h]

/-- Settles O3: `requestForm` gives every request its rule and roles, `request_untaken` and `request_foreign` the two answers. -/
theorem untakenAndForeignRequestsDoNothing : Obligations.UntakenAndForeignRequestsDoNothing := by
  unfold Obligations.UntakenAndForeignRequestsDoNothing
  refine ⟨fun i t kind b s hf ht => ?untaken, fun i t kind b s hf ht hs hr => ?foreign⟩
  case untaken =>
    by_cases hk : kind = 1
    · subst hk
      rw [fieldsOf_nothing hf]
      exact congrArg Host.Outcome.next (transaction_untaken ht _ _)
    · obtain ⟨body, -, e⟩ := requestForm i t kind b hf hk
      rw [e, request_untaken ht]
  case foreign =>
    have hk : kind ≠ 1 := by rintro rfl; exact hr (mem_rolesOf_nothing _)
    obtain ⟨body, -, e⟩ := requestForm i t kind b hf hk
    rw [e, request_foreign ht hs _ _ hr]

/-- Settles O4: the rule of every request is refusing, and a foreign role is answered ROLE. -/
theorem refusedRequestsChangeNothing : Obligations.RefusedRequestsChangeNothing := by
  unfold Obligations.RefusedRequestsChangeNothing
  intro i t kind b s hf hk ht hs
  obtain ⟨body, refusing, e⟩ := requestForm i t kind b hf hk
  have heardSettled := heard_settled t (b.length + 2) hs
  by_cases hr : (s.port t.port).role ∈ rolesOf kind
  · refine ⟨_, _, (e s).trans (congrArg Host.Outcome.next (request_taken ht hs _ _ hr body)), fun refused => ?_⟩
    obtain done | ⟨r, hbody⟩ := refusing (heard t (b.length + 2) s)
    · exact absurd done refused
    · rw [hbody, settle_settled heardSettled]
      exact ⟨rfl, rfl, rfl⟩
  · exact ⟨_, _, (e s).trans (congrArg Host.Outcome.next (request_foreign ht hs _ _ hr body)), fun _ => ⟨rfl, rfl, rfl⟩⟩

/-! ### Transactions without a request -/

/-- A transaction that is taken, its rule leaving the state as heard. -/
theorem transaction_taken {p : Port} {s : State} (h : s.takes p = true) (hs : s.Settled) (n : Nat) (r : Option Reply) :
    transaction p n (fun s => (r, s)) s = (heard { port := p, surplus := 0 } n s).modPort p
      (match r with
        | some r => deselect ∘ placeReply r
        | none => deselect) := by
  have settled := settle_settled (heard_settled { port := p, surplus := 0 } n hs)
  simp only [transaction, h, ite_true]
  cases r <;> exact congrArg (State.modPort p _) settled

/-- What a fresh port has to clock out is longer than no byte. -/
theorem clockOut_nothing {ps : PortState} (h : ps.Fresh) : clockOut 0 ps = ps := by
  obtain ⟨none, -⟩ := h
  unfold clockOut
  split
  · rw [none, if_neg (by unfold Reply.length; omega)]
  · rfl

theorem PerPort.mod_congr {α : Type} {f g : α → α} (x : PerPort α) (p : Port) (h : f (x.get p) = g (x.get p)) :
    x.mod f p = x.mod g p := by
  cases p <;> simp_all [PerPort.mod, PerPort.get]

theorem State.modPort_congr {p : Port} {f g : PortState → PortState} {s : State} (h : f (s.port p) = g (s.port p)) :
    s.modPort p f = s.modPort p g := congrArg (fun x => { s with ports := x }) (s.ports.mod_congr p h)

theorem malformedKind_eq (b : List Byte) : malformedKind b = b.getD 1 0 := by
  cases b with
  | nil => rfl
  | cons x b => cases b <;> rfl

/-- Settles O5: the three are `transaction_taken` with no reply, with the MALFORMED one, and a clock-out of no byte. -/
theorem transactionsWithoutARequest : Obligations.TransactionsWithoutARequest := by
  unfold Obligations.TransactionsWithoutARequest
  refine ⟨fun t s ht hs => ?nothing, fun p bytes s ht hs hw => ?malformed, fun p s ht hf => ?empty⟩
  case nothing => exact congrArg Host.Outcome.next (transaction_taken ht hs (2 + t.surplus) none)
  case malformed =>
    obtain ⟨some, unread⟩ : bytes ≠ [] ∧ Wire.readRequest p bytes = none := of_decide_eq_true hw
    have spellsNone : ¬ (bytes = [] ∨ (Wire.readRequest p bytes).isSome = true) := by simp [some, unread]
    have placed := transaction_taken ht hs bytes.length (.some { replyTo 0 (refuse .malformed) with kind := malformedKind bytes })
    rw [malformedKind_eq] at placed
    simp only [exec, execMalformedMessage, if_neg spellsNone, malformedKind_eq]
    exact congrArg Host.Outcome.next placed
  case empty =>
    simp only [exec, execEmptyTransaction, if_pos ht]
    exact congrArg Host.Outcome.next (State.modPort_congr (congrArg deselect (clockOut_nothing hf)))

/-! ### The reply slot -/

theorem clockOut_none {ps : PortState} (h : ps.transfer.reply = none) (n : Nat) : clockOut n ps = ps := by
  unfold clockOut
  rw [h]

/-- A reply clocked out whole leaves the slot; one clocked out in part stays (R174). -/
theorem clockOut_some {ps : PortState} {r : Reply} (h : ps.transfer.reply = some r) (n : Nat) :
    clockOut n ps = if 4 + r.data.length ≤ ps.transfer.clockedOut + n then { ps with slot := none } else ps := by
  unfold clockOut
  rw [h]
  simp only [Reply.length, Nat.add_comm r.data.length 4]

theorem PortState.transfer_released {ps : PortState} (h : ps.chip = .released) :
    ps.transfer = { reply := ps.slot, received := [], clockedOut := 0 } := by
  unfold PortState.transfer
  rw [h]

theorem PortState.transfer_asserted {ps : PortState} {tr : Transfer} (h : ps.chip = .asserted tr) : ps.transfer = tr := by
  unfold PortState.transfer
  rw [h]

theorem PerPort.mod_self {α : Type} {f : α → α} (x : PerPort α) (p : Port) (h : f (x.get p) = x.get p) : x.mod f p = x := by
  cases p <;> simp_all [PerPort.mod, PerPort.get]

theorem State.modPort_self {p : Port} {f : PortState → PortState} {s : State} (h : f (s.port p) = s.port p) : s.modPort p f = s :=
  congrArg (fun x => { s with ports := x }) (s.ports.mod_self p h)

/-- Settles O6: a released port has its slot to clock out, an asserted one the reply fixed then. -/
theorem replySlotFollowsTheClockOut : Obligations.ReplySlotFollowsTheClockOut := by
  unfold Obligations.ReplySlotFollowsTheClockOut
  refine ⟨fun ps r q n released => ?slot, fun ps tr n asserted => ?fixed, fun p s => ?assertion⟩
  case slot =>
    have empty : ({ ps with slot := none } : PortState).transfer.reply = none :=
      congrArg Transfer.reply (PortState.transfer_released (ps := { ps with slot := none }) released)
    have full : ({ ps with slot := some r } : PortState).transfer = { reply := some r, received := [], clockedOut := 0 } :=
      PortState.transfer_released released
    have out := clockOut_some (ps := { ps with slot := some r }) (by rw [full]) n
    simp only [full, Nat.zero_add] at out
    refine ⟨by rw [clockOut_none empty], fun whole => by rw [out, if_pos whole], fun part => ?_, rfl, rfl⟩
    rw [out, if_neg part.not_ge]
  case fixed =>
    have tr_eq := PortState.transfer_asserted asserted
    refine ⟨fun none => clockOut_none (by rw [tr_eq, none]) n, fun r hr => ?_⟩
    have out := clockOut_some (ps := ps) (by rw [tr_eq, hr]) n
    rw [tr_eq] at out
    exact ⟨fun whole => by rw [out, if_pos whole], fun part => by rw [out, if_neg part.not_ge]⟩
  case assertion =>
    refine ⟨fun hr hc => ?_, fun hr hc => ?_, fun k hr => ?_⟩ <;> refine congrArg Host.Outcome.next ?_
    · refine State.modPort_congr ?_
      simp only [assertSelect, hr, hc]
    · refine State.modPort_self ?_
      unfold assertSelect
      rw [hr]
      split <;> simp_all
    · refine State.modPort_congr ?_
      simp only [assertSelect, hr]

end Sys2Proof.Machine
end

section
/-! PROOFS of single operations: the queues and the journal's banks (R79, R81, R188), the resets (R15, R16, R190), the availability figure
(R86, R90) and the flash tick (R113). -/

namespace Sys2Proof.Machine

/-! ### Queues and banks -/

theorem PortQueue.push_room {q : PortQueue} (h : q.records.length < 64) (r : EventRecord) :
    q.push r = { q with records := q.records ++ [r] } := if_pos h

theorem PortQueue.push_full {q : PortQueue} (h : 64 ≤ q.records.length) (r : EventRecord) :
    q.push r = { q with records := q.records.drop 1 ++ [r], overrun := true } := if_neg h.not_gt

theorem PortQueue.push_length_le {q : PortQueue} (h : q.records.length ≤ 64) (r : EventRecord) : (q.push r).records.length ≤ 64 := by
  obtain room | full := lt_or_ge q.records.length 64
  · rw [push_room room]
    simpa using room
  · rw [push_full full]
    simp only [List.length_append, List.length_drop, List.length_singleton]
    omega

theorem Journal.append_room {j : Journal} (h : j.filling.length < 128) (e : JournalEntry) :
    j.append e = { j with filling := j.filling ++ [e] } := if_pos h

theorem Journal.append_full {j : Journal} (h : 128 ≤ j.filling.length) (e : JournalEntry) :
    j.append e = { j with dropped := min 65535 (j.dropped + 1) } := if_neg h.not_gt

/-- An arrival that makes one entry and raises nothing. -/
theorem settle_journalize (g : Source) (e : JournalEntry) {s : State} (h : s.Settled) :
    settle (journalize g e s) = { s with
      journal := s.journal.append e
      queues := if s.journal.dropped = 0 ∧ (s.journal.append e).dropped ≠ 0 then offerAll s.ports s.queues (s.record .journalFull 0 0)
        else s.queues
      choice := s.choice + 1 } := by
  obtain ⟨noRecords, noEntries⟩ := h
  have records : ∀ c : Prop, ∀ [Decidable c], (if c then [s.record .journalFull 0 0] else []).foldl (offerAll s.ports) s.queues =
      if c then offerAll s.ports s.queues (s.record .journalFull 0 0) else s.queues := fun c _ => by split <;> rfl
  rw [← records]
  cases s
  simp_all [settle, State.settledJournal, State.settledRecords, journalize, State.record]

/-- Settles O9: a push and an append are case splits on the room left, and the end of an arrival of one entry is `settle_journalize`. -/
theorem fullQueueAndJournalDrop : Obligations.FullQueueAndJournalDrop := by
  unfold Obligations.FullQueueAndJournalDrop
  refine ⟨fun q r => ⟨fun room => PortQueue.push_room room r, fun x l hq full => ?_, fun h => PortQueue.push_length_le h r⟩,
    fun g e s h => ⟨fun room => ?_, fun full => ?_⟩⟩
  · rw [PortQueue.push_full full, hq]
    rfl
  · rw [settle_journalize g e h, Journal.append_room room, if_neg fun ⟨empty, drops⟩ => drops empty]
  · have drops : s.journal.dropped = 0 ∧ (s.journal.append e).dropped ≠ 0 ↔ s.journal.dropped = 0 := by
      rw [Journal.append_full full]
      exact and_iff_left (by simp)
    rw [settle_journalize g e h, Journal.append_full full] at *
    simp only [drops]
    rfl

/-! ### The resets -/

theorem PortState.resetTo_eq (role : Role) (ps : PortState) :
    ps.resetTo role = { role, slot := none, chip := if ps.chip = .released then .released else .waiting } := by
  unfold PortState.resetTo
  cases ps.chip <;> rfl

/-- Settles O10: both resets put every block at its reset value; a port is `PortState.resetTo_eq`. -/
theorem resetsEmptyTheBlocks : Obligations.ResetsEmptyTheBlocks := by
  unfold Obligations.ResetsEmptyTheBlocks
  intro straps s
  constructor
  · simp only [exec, execPowerOnReset, resetBlocks, resetPorts, PortState.resetTo_eq]
    rfl
  · simp only [exec, execPinReset, resetBlocks, resetPorts, PortState.resetTo_eq]
    rfl

/-! ### The availability figure -/

/-- Settles O32: both figures are plain arithmetic. -/
theorem seatsLeftAndOccupancy : Obligations.SeatsLeftAndOccupancy := by
  unfold Obligations.SeatsLeftAndOccupancy
  intro c s h
  refine ⟨?_, fun none => if_pos none, fun some => if_neg some, ?_, fun hc => ?_⟩
  · unfold seatsLeft
    omega
  · unfold occupancy
    split
    · exact le_rfl
    · exact min_le_left _ _
  · unfold seatsLeft
    omega

theorem Showing.atMinute_pace (m : Nat) (x : Showing) :
    (x.atMinute m).pace = if x.state.paceState then nextPace x.pace x.tally else x.pace := rfl

/-- R91's bound: an eighth is taken off before the tally's at most 510 are added. -/
theorem nextPace_le {pace tally : Nat} (hp : pace ≤ 4087) (ht : tally ≤ 255) : nextPace pace tally ≤ 4087 := by
  unfold nextPace
  omega

/-- Settles O34: `Showing.atMinute` by state, and R91's bound. -/
theorem paceFollowsTheTally : Obligations.PaceFollowsTheTally := by
  unfold Obligations.PaceFollowsTheTally
  refine fun m x => ⟨rfl, fun pace => ?_, fun kept => ?_, fun hp ht => ?_⟩
  · rw [Showing.atMinute_pace]
    obtain h | h | h := pace <;> rw [h] <;> rfl
  · rw [Showing.atMinute_pace]
    obtain h | h | h | h := kept <;> rw [h] <;> rfl
  · rw [Showing.atMinute_pace]
    split
    · exact nextPace_le hp ht
    · exact hp

/-! ### The flash tick -/

theorem Notice.tick_flashing {x : Notice} {a b p : Nat} (active : x.state = .active) (flash : x.flash = some (a, b))
    (position : x.position = some p) : x.tick = { x with position := some (if p + 1 < a + b then p + 1 else 0) } := by
  simp only [Notice.tick, flash, position, if_pos active]

theorem Notice.tick_steady {x : Notice} (h : x.flash = none) : x.tick = x := by
  simp only [Notice.tick, h]

theorem Notice.tick_pending {x : Notice} (h : x.state = .pending) : x.tick = x := by
  have waits : x.state ≠ .active := by rw [h]; decide
  unfold Notice.tick
  split
  · rw [if_neg waits]
  · rfl
  · rfl

/-- The rhythm of a + b places turns modulo their number. -/
theorem rhythm_next {p n : Nat} (h : p < n) : (if p + 1 < n then p + 1 else 0) = (p + 1) % n := by
  split
  next low => exact (Nat.mod_eq_of_lt low).symm
  next last =>
    obtain rfl : n = p + 1 := by omega
    exact (Nat.mod_self _).symm

/-- Settles O38: the tick of one notice by its flash and state. -/
theorem flashTickTurnsTheRhythm : Obligations.FlashTickTurnsTheRhythm := by
  unfold Obligations.FlashTickTurnsTheRhythm
  refine ⟨fun n s h => ?_, fun s h => ?_, fun x a b p active flash position h => ⟨?_, ?_⟩,
    fun x h => ⟨Notice.tick_steady h, ?_⟩, fun x h => Notice.tick_pending h⟩
  · simp only [exec, execFlashTick, h]
  · simp only [exec, execFlashTick, h]
  · rw [Notice.tick_flashing active flash position, rhythm_next h]
  · simp only [Notice.on, flash, position]
  · simp only [Notice.on, h]

end Sys2Proof.Machine
end

section
/-! PROOFS about the second event without a minute event (spec/01, spec/04): the calendar's tick, the counts that fall, a hold that runs
out, the sales watch and the limit of M (R1 to R4, R16, R70, R77). -/

namespace Sys2Proof.Machine

/-! ### The calendar's tick -/

/-- The date and time one minute on (R1). -/
def Calendar.laterDate (c : Calendar) : Nat × Nat × Nat :=
  if c.wall = 1439 then nextDate c.year c.month c.day else (c.year, c.month, c.day)

/-- R1: the wall minute counts modulo 1440, and the date moves on at midnight. -/
theorem Calendar.nextMinute_eq {c : Calendar} (hh : c.hour ≤ 23) (hm : c.minute ≤ 59) : c.nextMinute = { c with
    year := c.laterDate.1, month := c.laterDate.2.1, day := c.laterDate.2.2
    hour := (c.wall + 1) % 1440 / 60, minute := (c.wall + 1) % 1440 % 60, second := 0 } := by
  have wall : c.wall = c.hour * 60 + c.minute := rfl
  unfold nextMinute laterDate
  split
  next early =>
    rw [if_neg (by omega), show (c.wall + 1) % 1440 / 60 = c.hour by omega, show (c.wall + 1) % 1440 % 60 = c.minute + 1 by omega]
  · split
    next late =>
      rw [if_neg (by omega), show (c.wall + 1) % 1440 / 60 = c.hour + 1 by omega, show (c.wall + 1) % 1440 % 60 = 0 by omega]
    next last =>
      rw [if_pos (by omega), show (c.wall + 1) % 1440 / 60 = 0 by omega, show (c.wall + 1) % 1440 % 60 = 0 by omega]

/-- A minute on, the date and time move and nothing else of the calendar. -/
theorem Calendar.nextMinute_frame (c : Calendar) :
    ∃ y mo d h mi, c.nextMinute = { c with year := y, month := mo, day := d, hour := h, minute := mi, second := 0 } := by
  unfold nextMinute
  split
  · exact ⟨_, _, _, _, _, rfl⟩
  · split <;> exact ⟨_, _, _, _, _, rfl⟩

section
variable {c : Calendar}

theorem Calendar.tick_counts (h : c.second < 59) : c.tick = ({ c with second := c.second + 1 }, .none) := if_pos h

theorem Calendar.tick_unset (h : c.second = 59) (hc : c.clock = .unset) : c.tick = ({ c with second := 0 }, .none) := by
  unfold tick
  rw [if_neg (by omega), hc]

theorem Calendar.tick_held (h : c.second = 59) (hc : c.clock = .running) (hh : c.held = true) : c.tick = (c.nextMinute, .none) := by
  unfold tick
  rw [if_neg (by omega), hc]
  exact if_pos hh

theorem Calendar.tick_minute (h : c.second = 59) (hc : c.clock = .running) (hh : c.held = false) (hm : c.m < 1048575) :
    c.tick = ({ c.nextMinute with m := c.m + 1 }, .minute) := by
  unfold tick
  rw [if_neg (by omega), hc]
  exact (if_neg (by simp [hh])).trans (if_pos hm)

theorem Calendar.tick_limit (h : c.second = 59) (hc : c.clock = .running) (hh : c.held = false) (hm : c.m = 1048575) :
    c.tick = ({ c.nextMinute with held := true }, .limit) := by
  unfold tick
  rw [if_neg (by omega), hc]
  exact (if_neg (by simp [hh])).trans (if_neg (by rw [hm]; decide))

end

/-! ### The holds and the watch -/

theorem expireHolds_none {s : State} (h : s.expired = []) (source : Nat → Source) : expireHolds source s = s := by
  unfold expireHolds
  simp only [h, List.any_nil, List.filter_false, List.foldl_nil]

/-- Holds that are not at their last second stay live. -/
theorem countDown_expired {s : State} (h : ∀ a ∈ s.holds, 2 ≤ a.remaining) : (countDown s).expired = [] := by
  simp only [State.expired, countDown, List.filter_eq_nil_iff, List.mem_map, forall_exists_index, and_imp]
  rintro _ a ha rfl
  have := h a ha
  simp only [beq_iff_eq]
  omega

/-- The sales watch at a second event at which it does not run out (R77). -/
theorem watchSecond_runs {s : State} (h : s.watch.sales = .stale ∨ 2 ≤ s.watch.count) :
    watchSecond s = { s with watch :=
      if s.watch.sales = .stale then s.watch else { s.watch with count := s.watch.count - 1 } } := by
  unfold watchSecond
  cases hs : s.watch.sales with
  | stale => rfl
  | current =>
    have runs : ¬ s.watch.count ≤ 1 := by
      rcases h with h | h
      · rw [hs] at h; cases h
      · omega
    exact if_neg runs

theorem watchSecond_stale {s : State} (h : s.watch.sales = .stale) : watchSecond s = s := by
  unfold watchSecond
  rw [h]

theorem watchSecond_runsOut {s : State} (hs : s.watch.sales = .current) (h : s.watch.count = 1) :
    watchSecond s = raise .watch .salesStale 0 s.watch.period { s with watch := { s.watch with sales := .stale, count := 0 } } := by
  unfold watchSecond
  rw [hs]
  exact if_pos h.le

/-- What a second event does once the calendar has counted and what its carry brings has been done. -/
def secondTail (u : State) : State := settle { watchSecond u with panels := (watchSecond u).panels.map Panel.second }

/-- What a carry brings, the calendar and the holds having counted. -/
def carryWork (k : Carry) (t : State) : State :=
  match k with
  | .none => expireHolds Source.seats t
  | .limit => expireHolds Source.seats (raise .board .clockLimit 0 0 t)
  | .minute => minuteWithExpiry (calendarMinute t)

/-- A second event with RSTN released (R2, R70, R77). -/
theorem secondEvent_released {s : State} (hr : s.rstn = .released) {c : Calendar} {k : Carry} (ht : s.cal.tick = (c, k)) :
    secondEvent s = secondTail (carryWork k (countDown { s with cal := c })) := by
  have event : secondEvent s = secondTail (carryWork s.cal.tick.2 (countDown { s with cal := s.cal.tick.1 })) := by
    unfold secondEvent
    split
    next asserted => rw [hr] at asserted; cases asserted
    · rfl
  rw [event, ht]

theorem secondTail_runs {u : State} (h : u.watch.sales = .stale ∨ 2 ≤ u.watch.count) (hs : u.Settled) : secondTail u = { u with
    watch := if u.watch.sales = .stale then u.watch else { u.watch with count := u.watch.count - 1 }
    panels := u.panels.map Panel.second } := by
  unfold secondTail
  rw [watchSecond_runs h]
  exact settle_settled hs

/-- An arrival that raised one record and nothing else. -/
theorem settle_raise (g : Source) (k : EventKind) (n d : Nat) {s : State} (h : s.Settled) :
    settle (raise g k n d s) = { s with
      queues := offerAll s.ports s.queues (s.record k n d)
      choice := s.choice + 1 } := by
  obtain ⟨noRecords, noEntries⟩ := h
  rw [settle_one (s := raise g k n d s) (x := (g, s.record k n d)) (by rw [raise_outbox, noRecords, List.nil_append]) noEntries]
  simp only [raise, ← noRecords]

/-- One at which no hold runs out and the watch does not. -/
theorem secondEvent_quiet {s : State} (hr : s.rstn = .released) (hs : s.Settled) (hh : ∀ a ∈ s.holds, 2 ≤ a.remaining)
    (hw : s.watch.sales = .stale ∨ 2 ≤ s.watch.count) {c : Calendar} (ht : s.cal.tick = (c, .none)) :
    secondEvent s = { s with
      cal := c
      holds := s.holds.map fun a => { a with remaining := a.remaining - 1 }
      watch := if s.watch.sales = .stale then s.watch else { s.watch with count := s.watch.count - 1 }
      panels := s.panels.map Panel.second } := by
  have unexpired : (countDown { s with cal := c }).expired = [] := countDown_expired hh
  rw [secondEvent_released hr ht, carryWork, expireHolds_none unexpired]
  exact secondTail_runs (u := countDown { s with cal := c }) hw hs

/-! ### The sales watch -/

theorem signOfLife_current {p : Port} {s : State} (hr : (s.port p).role = .sales) (hw : s.watch.sales = .current) :
    signOfLife p s = { s with watch := { s.watch with count := s.watch.period } } := by
  unfold signOfLife
  rw [if_pos hr, hw]

theorem signOfLife_stale {p : Port} {s : State} (hs : s.Settled) (hr : (s.port p).role = .sales) (hw : s.watch.sales = .stale) :
    signOfLife p s = { s with
      watch := { sales := .current, count := s.watch.period, period := s.watch.period }
      queues := offerAll s.ports s.queues (s.record .salesResumed 0 (portCode p))
      choice := s.choice + 1 } := by
  unfold signOfLife
  rw [if_pos hr, hw]
  exact settle_raise .board .salesResumed 0 (portCode p) (by exact hs)

/-- Settles O7: a sign of life by the watch's state, and the second event at which the watch alone runs out. -/
theorem salesWatchHearsAndRunsOut : Obligations.SalesWatchHearsAndRunsOut := by
  unfold Obligations.SalesWatchHearsAndRunsOut
  refine ⟨fun p s hs => ⟨signOfLife_other, signOfLife_current, signOfLife_stale hs⟩, fun s hr hs hsec hh hsales hcount => ?_⟩
  let u := countDown { s with cal := { s.cal with second := s.cal.second + 1 } }
  have unexpired : u.expired = [] := countDown_expired hh
  have event : secondEvent s = settle { watchSecond u with panels := (watchSecond u).panels.map Panel.second } := by
    rw [secondEvent_released hr (Calendar.tick_counts hsec)]
    exact congrArg secondTail (expireHolds_none unexpired _)
  rw [watchSecond_runsOut (s := u) hsales hcount] at event
  have label : exec .salesStale s = .next (secondEvent s) := congrArg Host.Outcome.next (if_pos ⟨hsales, hcount.le⟩)
  rw [label, event]
  exact congrArg Host.Outcome.next (settle_raise .watch .salesStale 0 s.watch.period (s := { u with
    watch := { u.watch with sales := .stale, count := 0 }, panels := u.panels.map Panel.second }) hs)

/-! ### The obligations -/

theorem exec_second_or_dwell {c : Instr} {s : State} (h : c = .secondEvent ∨ ∃ p, c = .dwellExpiry p ∧
      (s.panel (panelOf p)).profile.enabled = true ∧
        ((s.panel (panelOf p)).pageCount = 1 ∨ (s.panel (panelOf p)).noticeCount = 1)) :
    exec c s = .next (secondEvent s) := by
  obtain rfl | ⟨p, rfl, due⟩ := h
  · rfl
  · exact congrArg Host.Outcome.next (if_pos due)

/-- The calendar after a carry that brings no minute event. -/
def Calendar.carried (c : Calendar) : Calendar := if c.clock = .unset then { c with second := 0 } else c.nextMinute

theorem Calendar.carried_eq {c : Calendar} (hh : c.hour ≤ 23) (hm : c.minute ≤ 59) : c.carried =
    if c.clock = .unset then { c with second := 0 }
    else { c with
      year := (if c.wall = 1439 then nextDate c.year c.month c.day else (c.year, c.month, c.day)).1
      month := (if c.wall = 1439 then nextDate c.year c.month c.day else (c.year, c.month, c.day)).2.1
      day := (if c.wall = 1439 then nextDate c.year c.month c.day else (c.year, c.month, c.day)).2.2
      hour := (c.wall + 1) % 1440 / 60, minute := (c.wall + 1) % 1440 % 60, second := 0 } := by
  unfold Calendar.carried
  rw [Calendar.nextMinute_eq hh hm]
  rfl

theorem Calendar.tick_carried {c : Calendar} (h : c.second = 59) (hc : c.clock = .unset ∨ c.held = true) : c.tick = (c.carried, .none) := by
  unfold Calendar.carried
  by_cases unset : c.clock = .unset
  · rw [if_pos unset, Calendar.tick_unset h unset]
  · have running : c.clock = .running := by cases hk : c.clock <;> simp_all
    rw [if_neg unset, Calendar.tick_held h running (hc.resolve_left unset)]

theorem secondEvent_asserted {s : State} {kind : ResetKind} (h : s.rstn = .asserted kind) : secondEvent s = secondInReset kind s := by
  unfold secondEvent
  split
  next k asserted =>
    rw [h] at asserted
    cases asserted
    rfl
  next released => rw [h] at released; cases released

/-- While RSTN is asserted after a pin reset the calendar alone counts (R16). -/
theorem secondEvent_pin {s : State} (h : s.rstn = .asserted .pin) {c : Calendar} {k : Carry} (ht : s.cal.tick = (c, k))
    (hk : k ≠ .limit) : secondEvent s = { s with cal := c } := by
  rw [secondEvent_asserted h]
  simp only [secondInReset, secondInPinReset, ht]
  cases k with
  | none => rfl
  | minute => rfl
  | limit => exact absurd rfl hk

theorem secondEvent_pin_limit {s : State} (h : s.rstn = .asserted .pin) {c : Calendar} (ht : s.cal.tick = (c, .limit)) :
    secondEvent s = { s with
      cal := c, deferred := s.deferred ++ [State.record { s with cal := c } .clockLimit 0 0] } := by
  rw [secondEvent_asserted h]
  simp only [secondInReset, secondInPinReset, ht]

/-- Settles O12: the tick by the second field, the clock and M, and `secondEvent_quiet`. -/
theorem secondEventCountsDown : Obligations.SecondEventCountsDown := by
  unfold Obligations.SecondEventCountsDown
  refine ⟨fun c s hr hs hsec hh hw hc => ?counts, fun s hd => ?carry⟩
  case counts => rw [exec_second_or_dwell hc, secondEvent_quiet hr hs hh hw (Calendar.tick_counts hsec)]; rfl
  case carry =>
    intro wall date later
    have carried : s.cal.carried = later := Calendar.carried_eq hd.hour hd.minute
    have running : s.cal.clock = .running → s.cal.nextMinute = later := fun hc => by
      rw [← carried, Calendar.carried, if_neg (by rw [hc]; decide)]
    refine ⟨fun hr hs hsec hh hw hc => ?held, fun hr => ?powerOn, fun hr hsec => ?pin, fun hr hsec hc => ?pinHeld,
      fun hr hsec hc hheld hm => ?pinMinute, fun hr hsec hc hheld hm => ?pinLimit⟩ <;> refine congrArg Host.Outcome.next ?_
    case held => rw [← carried, secondEvent_quiet hr hs hh hw (Calendar.tick_carried hsec hc)]; rfl
    case powerOn => exact secondEvent_asserted hr
    case pin => exact secondEvent_pin hr (Calendar.tick_counts hsec) (by decide)
    case pinHeld => rw [← carried]; exact secondEvent_pin hr (Calendar.tick_carried hsec hc) (by decide)
    case pinMinute => rw [← running hc]; exact secondEvent_pin hr (Calendar.tick_minute hsec hc hheld hm) (by decide)
    case pinLimit =>
      rw [← running hc, secondEvent_pin_limit hr (Calendar.tick_limit hsec hc hheld hm)]
      obtain ⟨y, mo, d, h, mi, next⟩ := s.cal.nextMinute_frame
      simp only [State.record, next, hm]
      rfl

/-- Settles O15: the carry at the limit raises CLOCK LIMIT and delivers no minute event. -/
theorem clockLimitHoldsTheBoardMinute : Obligations.ClockLimitHoldsTheBoardMinute := by
  unfold Obligations.ClockLimitHoldsTheBoardMinute
  intro c s hr hs hc hheld hm hsec hh hw hcmd
  obtain ⟨y, mo, d, h, mi, next⟩ := s.cal.nextMinute_frame
  have run : exec c s = .next (secondEvent s) := by
    obtain rfl | rfl := hcmd
    · exact congrArg Host.Outcome.next (if_pos ⟨hc, hsec.ge⟩)
    · rfl
  have limit := Calendar.tick_limit hsec hc hheld hm
  rw [next] at limit
  let later : Calendar := { s.cal with year := y, month := mo, day := d, hour := h, minute := mi, second := 0, held := true }
  let u := countDown { s with cal := later }
  have unexpired : (raise .board .clockLimit 0 0 u).expired = [] := countDown_expired (s := { s with cal := later }) hh
  have event : secondEvent s = settle (raise .board .clockLimit 0 0 { u with panels := u.panels.map Panel.second }) := by
    rw [secondEvent_released hr limit]
    refine (congrArg secondTail (expireHolds_none unexpired _)).trans ?_
    unfold secondTail
    rw [watchSecond_stale (s := raise .board .clockLimit 0 0 u) hw]
    rfl
  have settled := settle_raise .board .clockLimit 0 0 (s := { u with panels := u.panels.map Panel.second }) hs
  rw [run, event, settled]
  refine ⟨_, rfl, rfl, hm, rfl, rfl, rfl, rfl, ?_, rfl⟩
  show offerAll s.ports s.queues (State.record { u with panels := u.panels.map Panel.second } .clockLimit 0 0) = _
  simp only [State.record, u, countDown, later, hm]
  rfl

end Sys2Proof.Machine
end

section
/-! PROOFS about the seats of one showing (spec/04): every seat change is `recounted`, and the requests and the expiry that make one
(R55, R60 to R75). -/

namespace Sys2Proof.Machine

theorem heard_record (t : Txn) (n : Nat) {s : State} (h : s.Settled) (k : EventKind) (number detail : Nat) :
    (heard t n s).record k number detail = s.record k number detail := by
  unfold State.record
  rw [heard_cal t n h]

/-! ### A seat change -/

/-- R60: the record in line, OVERSOLD where the excess grew, then BAND where the band changed. -/
theorem changeSeats_eq (g : Source) {id : Nat} (f : Showing → Showing) {s : State} {x y : Showing} (hx : s.showing? id = some x)
    (hy : y = (f x).inLine s.figure s.cal.m) : changeSeats g id f s = { s with
      showings := modKey Showing.id id (fun _ => y) s.showings
      outbox := s.outbox
        ++ (if x.excess < y.excess then [(g, s.record .oversold id y.excess)] else [])
        ++ (if y.band ≠ x.band then [(g, s.record .band id y.band.code)] else []) } := by
  subst hy
  unfold changeSeats
  rw [hx]
  dsimp only
  split <;> split <;> simp only [raise, List.append_nil, State.modShowing, State.record]

theorem recounted_showing? (kind : JournalKind) (count : Nat) {x y : Showing} {s : State} (hx : s.showing? x.id = some x)
    (hid : y.id = x.id) : (recounted kind count x y s).showing? x.id = some y := by
  have found := findKey_modKey_same Showing.id x.id (fun _ => y) s.showings fun _ _ => hid
  rw [show findKey Showing.id x.id s.showings = some x from hx] at found
  exact found

theorem recounted_seatData (kind : JournalKind) (count : Nat) {x y : Showing} {s : State} (hx : s.showing? x.id = some x)
    (hid : y.id = x.id) : (recounted kind count x y s).seatData x.id = y.seatData := by
  unfold State.seatData
  rw [recounted_showing? kind count hx hid]

theorem State.showing?_id {s : State} {id : Nat} {x : Showing} (h : s.showing? id = some x) : x.id = id :=
  (findKey_mem Showing.id h).2

/-- R60, R79: a seat change that journals after it. -/
theorem seatChange_eq (kind : JournalKind) {id : Nat} (count : Nat) {f : Showing → Showing} {s : State} {x y : Showing}
    (hx : s.showing? id = some x) (hid : (f x).id = x.id) (hy : y = (f x).inLine s.figure s.cal.m) :
    seatChange kind id count f s = recounted kind count x y s := by
  obtain rfl := State.showing?_id hx
  have same : y.id = x.id := by rw [hy, Showing.inLine_id, hid]
  have found := recounted_showing? kind count hx same
  unfold seatChange
  rw [changeSeats_eq _ f hx hy]
  unfold journalShowing
  dsimp only [State.showing?, recounted] at found ⊢
  rw [found]
  simp only [journalize, State.entryFor, same]

/-! ### SELL, REFUND, SNAPSHOT -/

section
variable {s : State} {id : Nat} {x y : Showing} (hx : s.showing? id = some x) (hid : id ≠ 0)
include hx hid

theorem sell_done {n : Nat} (hn : n ≠ 0) (hs : s.suspended x = false) (hst : x.state.sells = true)
    (hy : y = (Showing.sell n x).inLine s.figure s.cal.m) :
    sell id n s = (done (decide (min 2047 (x.sold + n) - x.sold < n)) (y.seatData ++ u8 (min 2047 (x.sold + n) - x.sold)),
      recounted .sell (min 2047 (x.sold + n) - x.sold) x y s) := by
  obtain rfl := State.showing?_id hx
  unfold sell
  rw [if_neg (by omega), hx]
  dsimp only
  rw [if_neg (by simp [hs]), if_neg (by simp [hst]), seatChange_eq .sell _ hx rfl hy, recounted_seatData _ _ hx (by rw [hy]; rfl)]
  rfl

theorem refund_done {n : Nat} (hn : n ≠ 0)
    (hy : y = ({ x with sold := x.sold - min n x.sold } : Showing).inLine s.figure s.cal.m) :
    refund id n s = (done (decide (min n x.sold < n)) (y.seatData ++ u8 (min n x.sold)), recounted .refund (min n x.sold) x y s) := by
  obtain rfl := State.showing?_id hx
  unfold refund
  rw [if_neg (by omega), hx]
  dsimp only
  rw [seatChange_eq .refund _ hx rfl hy, recounted_seatData _ _ hx (by rw [hy]; rfl)]

theorem snapshot_done {v : Nat} (hy : y = ({ x with sold := min 2047 v } : Showing).inLine s.figure s.cal.m) :
    snapshot id v s = (done (decide (2047 < v)) y.seatData, recounted .snapshot (min 2047 v) x y s) := by
  obtain rfl := State.showing?_id hx
  unfold snapshot
  rw [if_neg hid, hx]
  dsimp only
  rw [seatChange_eq .snapshot (min soldMax v) hx rfl hy, recounted_seatData _ _ hx (by rw [hy]; rfl)]
  rfl

theorem setCapacity_done {c : Nat} (h1 : x.state ≠ .ended) (h2 : x.state ≠ .cancelled)
    (hy : y = ({ x with cap := min 1500 c } : Showing).inLine s.figure s.cal.m) :
    setCapacity id c s = (done (decide (1500 < c)) (u16 y.cap ++ u16 y.sold ++ u16 y.held ++ u16 y.left),
      raiseAmendment id x.state (recounted .capacity (min 1500 c) x y s)) := by
  obtain rfl := State.showing?_id hx
  have clamped : clamp 0 1500 c = min 1500 c := by unfold clamp; omega
  have carried : (min 1500 c != c) = decide (1500 < c) := by
    rw [Bool.eq_iff_iff, bne_iff_ne, decide_eq_true_iff]
    omega
  unfold setCapacity
  rw [if_neg hid, hx]
  dsimp only
  rw [if_neg (by simp [h1, h2]), clamped, carried, seatChange_eq .capacity _ hx rfl hy]
  have found : (raiseAmendment x.id x.state (recounted .capacity (min 1500 c) x y s)).showing? x.id = some y :=
    recounted_showing? .capacity (min 1500 c) hx (by rw [hy]; rfl)
  unfold State.fromShowing
  rw [found]

end

/-- A showing that is not suspended: its auditorium is in service (R23). -/
theorem suspended_eq_false {s : State} {x : Showing} (h : (s.auditorium x.auditorium).state = .inService) : s.suspended x = false := by
  unfold State.suspended
  rw [h]
  rfl

/-- Settles O28: the three requests are one `recounted` each, on the state as heard. -/
theorem seatSalesChangeTheCounts : Obligations.SeatSalesChangeTheCounts := by
  unfold Obligations.SeatSalesChangeTheCounts
  refine ⟨fun t id n x s ht hid hn hx hservice hstate => ?sell,
    fun t id x s ht hid hx => ⟨fun n hn => ?refund, fun v => ?snapshot⟩⟩ <;> obtain ⟨takes, role, settled⟩ := ht
  case sell =>
    have sells : x.state.sells = true := by obtain h | h | h | h := hstate <;> rw [h] <;> rfl
    have hx' : (heard t 5 s).showing? id.toNat = some x := (heard_showing? t 5 settled _).trans hx
    have open' : (heard t 5 s).suspended x = false := suspended_eq_false (by rw [heard_auditorium t 5 settled, hservice])
    have out := sell_done hx' hid hn open' sells rfl
    rw [heard_figure t 5 settled, heard_cal t 5 settled] at out
    exact congrArg Host.Outcome.next ((request_taken takes settled 5 48 role _).trans (by rw [out]; rfl))
  case refund =>
    have hx' : (heard t 5 s).showing? id.toNat = some x := (heard_showing? t 5 settled _).trans hx
    have out := refund_done hx' hid hn rfl
    have short : (min n.toNat x.sold < n.toNat) = (x.sold < n.toNat) := by rw [eq_iff_iff]; omega
    rw [heard_figure t 5 settled, heard_cal t 5 settled] at out
    simp only [short] at out
    exact congrArg Host.Outcome.next ((request_taken takes settled 5 49 role _).trans (by rw [out]; rfl))
  case snapshot =>
    have hx' : (heard t 6 s).showing? id.toNat = some x := (heard_showing? t 6 settled _).trans hx
    have out := snapshot_done (v := v.toNat) hx' hid rfl
    rw [heard_figure t 6 settled, heard_cal t 6 settled] at out
    exact congrArg Host.Outcome.next ((request_taken takes settled 6 50 role _).trans (by rw [out]; rfl))

/-- Settles O25: one `recounted` and the amendment record. -/
theorem setCapacityRecountsTheShowing : Obligations.SetCapacityRecountsTheShowing := by
  unfold Obligations.SetCapacityRecountsTheShowing
  intro t id c x s ht hid hx h1 h2
  obtain ⟨takes, role, settled⟩ := ht
  have hx' : (heard t 6 s).showing? id.toNat = some x := (heard_showing? t 6 settled _).trans hx
  have out := setCapacity_done hx' hid (c := c.toNat) h1 h2 rfl
  rw [heard_figure t 6 settled] at out
  have cal := heard_cal t 6 settled
  refine congrArg Host.Outcome.next ((request_taken takes settled 6 35 role _).trans ?_)
  rw [out, cal]
  rw [← State.showing?_id hx]
  simp only [raiseAmendment, raise, State.record, recounted, cal]
  rfl

/-! ### HOLD -/

theorem hasKey_false_of {α : Type} {key : α → Nat} {k : Nat} {l : List α} (h : ∀ a ∈ l, key a ≠ k) : hasKey key k l = false :=
  (hasKey_eq_false key).2 h

theorem holdSeats_done {s : State} {tag id n life : Nat} {x y : Showing} (htag : tag ≠ 0) (hid : id ≠ 0) (hn : n ≠ 0)
    (hx : s.showing? id = some x) (hs : s.suspended x = false) (hst : x.state.holds = true) (hnew : ∀ a ∈ s.holds, a.tag ≠ tag)
    (hroom : s.holds.length < 96) (hleft : x.left ≠ 0)
    (hy : y = ({ x with held := x.held + min n x.left } : Showing).inLine s.figure s.cal.m) :
    holdSeats tag id n life s =
      (done (decide (min n x.left < n ∨ clamp 30 1800 life ≠ life))
        (y.seatData ++ u16 tag ++ u8 (min n x.left) ++ u16 (clamp 30 1800 life)),
       recounted .hold (min n x.left) x y { s with
         holds := insertKey Hold.tag { tag, showing := id, count := min n x.left, remaining := clamp 30 1800 life } s.holds }) := by
  obtain rfl := State.showing?_id hx
  have taken : s.holdRefusal tag x.id n = none := by
    unfold State.holdRefusal
    rw [if_neg (by omega), hx]
    dsimp only
    rw [if_neg (by simp [hs]), if_neg (by simp [hst]), if_neg (by simp [hasKey_false_of hnew]), if_neg (show ¬ Config.holdPlaces ≤ s.holds.length from hroom.not_ge), if_neg hleft]
  unfold holdSeats
  rw [taken]
  dsimp only
  rw [hx]
  dsimp only [Option.elim]
  have hx' : State.showing? { s with
      holds := insertKey Hold.tag { tag, showing := x.id, count := min n x.left, remaining := clamp 30 1800 life } s.holds } x.id =
    some x := hx
  have change := seatChange_eq .hold (min n x.left) (f := fun y => { y with held := y.held + min n x.left }) hx' rfl hy
  rw [change, recounted_seatData _ _ hx' (by rw [hy]; rfl)]
  rfl

/-- Settles O29: `holdSeats_done`, the hold new and seats left. -/
theorem holdGrantsSeats : Obligations.HoldGrantsSeats := by
  unfold Obligations.HoldGrantsSeats
  intro t tag id n life x s ht htag hid hn hx hservice hstate hnew hroom hleft
  obtain ⟨takes, role, settled⟩ := ht
  have holds : x.state.holds = true := by obtain h | h | h := hstate <;> rw [h] <;> rfl
  have hx' : (heard t 9 s).showing? id.toNat = some x := (heard_showing? t 9 settled _).trans hx
  have open' : (heard t 9 s).suspended x = false := suspended_eq_false (by rw [heard_auditorium t 9 settled, hservice])
  have live : (heard t 9 s).holds = s.holds := heard_holds t 9 settled
  have out := holdSeats_done (life := life.toNat) htag hid hn hx' open' holds (by rw [live]; exact hnew) (by rw [live]; exact hroom)
    (by unfold Showing.left seatsLeft; omega)
    (y := ({ x with held := x.held + min n.toNat x.left } : Showing).inLine s.figure s.cal.m)
    (by rw [heard_figure t 9 settled, heard_cal t 9 settled])
  refine congrArg Host.Outcome.next ((request_taken takes settled 9 51 role _).trans ?_)
  have clamped : (clamp 30 1800 life.toNat ≠ life.toNat) = (life.toNat < 30 ∨ 1800 < life.toNat) := by
    rw [eq_iff_iff]
    unfold clamp
    omega
  rw [out]
  simp only [clamped]
  rfl

/-! ### CONFIRM and RELEASE -/

section
variable {s : State} {tag : Nat} {a : Hold} {x y : Showing} (htag : tag ≠ 0) (ha : s.hold? tag = some a)
  (hx : s.showing? a.showing = some x)
include htag ha hx

theorem confirm_done {n : Nat} (hn : n ≠ 0)
    (hy : y = ({ Showing.sell (min n a.count) x with held := x.held - a.count } : Showing).inLine s.figure s.cal.m) :
    confirm tag n s =
      (done (decide (min n a.count < n ∨ 2047 - x.sold < min n a.count)) (y.seatData ++ u8 (min n a.count) ++ u8 (a.count - min n a.count)),
       recounted .confirm (min n a.count) x y (dropHold a 5 s)) := by
  have hid := State.showing?_id hx
  have hx' : (dropHold a endConfirmed s).showing? a.showing = some x := hx
  have hx'' : (dropHold a endConfirmed s).showing? x.id = some x := by rw [hid]; exact hx
  unfold confirm
  rw [if_neg (by omega), ha]
  dsimp only
  have change := seatChange_eq .confirm (min n a.count)
    (f := fun y => { Showing.sell (min n a.count) y with held := y.held - a.count }) hx' rfl hy
  rw [hx, change, ← hid, recounted_seatData _ _ hx'' (by rw [hy]; rfl)]
  rfl

theorem releaseHold_done (hy : y = ({ x with held := x.held - a.count } : Showing).inLine s.figure s.cal.m) :
    releaseHold tag s = (done false (y.seatData ++ u8 a.count), recounted .release a.count x y (dropHold a 4 s)) := by
  have hid := State.showing?_id hx
  have hx' : (dropHold a endReleased s).showing? a.showing = some x := hx
  have hx'' : (dropHold a endReleased s).showing? x.id = some x := by rw [hid]; exact hx
  unfold releaseHold
  rw [if_neg htag, ha]
  dsimp only
  have change := seatChange_eq .release a.count (f := fun y => { y with held := y.held - a.count }) hx' rfl hy
  rw [change, ← hid, recounted_seatData _ _ hx'' (by rw [hy]; rfl)]
  rfl

end

theorem dropHold_eq {s : State} {tag : Nat} {a : Hold} {x : Showing} (ha : s.hold? tag = some a) (hid : x.id = a.showing)
    (hs : s.outbox = []) (reason : Nat) : dropHold a reason s = { s with
      holds := s.holds.filter fun g => decide (g.tag ≠ tag)
      outbox := [(Source.seats x.id, s.record .holdEnded tag reason)] } := by
  obtain ⟨-, rfl⟩ := findKey_mem Hold.tag ha
  have kept : eraseKey Hold.tag a.tag s.holds = s.holds.filter fun g => decide (g.tag ≠ a.tag) := by
    unfold eraseKey
    refine List.filter_congr fun g _ => ?_
    rw [Bool.eq_iff_iff, bne_iff_ne, decide_eq_true_iff]
  unfold dropHold raise
  simp only [hs, hid, kept, List.nil_append]
  rfl

/-- Settles O30: the hold dropped, then one `recounted`. -/
theorem confirmAndReleaseEndTheHold : Obligations.ConfirmAndReleaseEndTheHold := by
  unfold Obligations.ConfirmAndReleaseEndTheHold
  intro t tag a x s ht htag ha hx
  obtain ⟨takes, role, settled⟩ := ht
  have drop : ∀ k reason, dropHold a reason (heard t k s) = { heard t k s with
      holds := (heard t k s).holds.filter fun g => decide (g.tag ≠ tag.toNat)
      outbox := [(Source.seats x.id, s.record .holdEnded tag.toNat reason)] } := fun k reason => by
    rw [dropHold_eq (x := x) ((heard_hold? t k settled _).trans ha) (State.showing?_id hx) (heard_settled t k settled).1]
    rw [heard_record t k settled]
  refine ⟨fun n hn => ?confirm, ?release⟩
  case confirm =>
    have out := confirm_done htag ((heard_hold? t 5 settled _).trans ha) ((heard_showing? t 5 settled _).trans hx) hn rfl
    have short : (min n.toNat a.count < n.toNat ∨ 2047 - x.sold < min n.toNat a.count) =
        (a.count < n.toNat ∨ 2047 < x.sold + min n.toNat a.count) := by
      rw [eq_iff_iff]
      omega
    rw [heard_figure t 5 settled, heard_cal t 5 settled, drop] at out
    simp only [short] at out
    exact congrArg Host.Outcome.next ((request_taken takes settled 5 52 role _).trans (by rw [out]; rfl))
  case release =>
    have out := releaseHold_done htag ((heard_hold? t 4 settled _).trans ha) ((heard_showing? t 4 settled _).trans hx) rfl
    rw [heard_figure t 4 settled, heard_cal t 4 settled, drop] at out
    exact congrArg Host.Outcome.next ((request_taken takes settled 4 53 role _).trans (by rw [out]; rfl))

/-! ### A hold that runs out -/

/-- One hold of a showing ended at a second event (R60, R70, R75). -/
theorem endHolds_one (reason : Nat) (kind : JournalKind) {id : Nat} (a : Hold) {s : State} {x y : Showing} (hx : s.showing? id = some x)
    (hy : y = ({ x with held := x.held - a.count } : Showing).inLine s.figure s.cal.m) :
    endHolds (.seats id) reason kind id [a] (fun y => y) s = recounted kind a.count x y { s with
      choice := s.choice + 1
      holds := s.holds.filter fun b => b.tag != a.tag
      outbox := s.outbox ++ [(.seats x.id, s.record .holdEnded a.tag reason)] } := by
  obtain rfl := State.showing?_id hx
  have kept : (s.holds.filter fun h => !([a].map Hold.tag).contains h.tag) = s.holds.filter fun b => b.tag != a.tag :=
    List.filter_congr fun b _ => by rw [Bool.eq_iff_iff]; simp
  unfold endHolds
  rw [hx]
  dsimp only
  rw [kept, anyOrder_singleton]
  simp only [endEntries, List.foldl_cons, List.foldl_nil]
  let ended := raise (.seats x.id) .holdEnded a.tag reason { s with
    choice := s.choice + 1, holds := s.holds.filter fun b => b.tag != a.tag }
  let entered := journalize (.seats x.id) { s.entryFor kind x 0 with count := a.count, held := x.held - a.count } ended
  refine (changeSeats_eq (.seats x.id) (fun z => { z with held := z.held - holdSum [a] }) (s := entered) (y := y) hx hy).trans ?_
  rw [hy]
  rfl

theorem filter_eq_singleton {α : Type} [DecidableEq α] {l : List α} (h : l.Nodup) {a : α} (ha : a ∈ l) {p : α → Bool}
    (hp : ∀ b ∈ l, p b = (b == a)) : l.filter p = [a] := by
  rw [List.filter_congr hp, List.filter_beq, List.count_eq_one_of_mem h ha]
  rfl

/-- Where one hold has run out, its showing's part is all there is (R70). -/
theorem expireHolds_one {s : State} {a : Hold} {x : Showing} (hrise : Rising (s.showings.map Showing.id)) (h : s.expired = [a])
    (hx : s.showing? a.showing = some x) :
    expireHolds Source.seats s = endHolds (.seats a.showing) endExpired .expire a.showing [a] (fun y => y) s := by
  obtain ⟨hxm, hxid⟩ := findKey_mem Showing.id hx
  have ids : ((s.showings.map Showing.id).filter fun id => s.expired.any fun b => b.showing == id) = [a.showing] :=
    filter_eq_singleton (hrise.imp fun lt => Nat.ne_of_lt lt) (hxid ▸ List.mem_map_of_mem hxm) fun b _ => by
      rw [h, Bool.eq_iff_iff]
      simp only [List.any_cons, List.any_nil, Bool.or_false, beq_iff_eq]
      exact eq_comm
  unfold expireHolds
  rw [ids]
  simp only [List.foldl_cons, List.foldl_nil, h]
  simp

theorem recounted_frame (kind : JournalKind) (count : Nat) (x y : Showing) (s : State) (w : Watch) (ps : List Panel) :
    ({ recounted kind count x y s with watch := w, panels := ps } : State) = recounted kind count x y { s with watch := w, panels := ps } :=
  rfl

/-- Settles O13: the one hold at its last second is the only one to end. -/
theorem holdExpiryEndsTheHold : Obligations.HoldExpiryEndsTheHold := by
  unfold Obligations.HoldExpiryEndsTheHold
  intro tag a x s hr hs hseat hsec ha hlast hothers hw hx
  obtain ⟨ham, hatag⟩ := findKey_mem Hold.tag ha
  have label : exec (.holdExpiry tag) s = .next (secondEvent s) := by
    refine congrArg Host.Outcome.next (if_pos ?_)
    rw [show s.hold? tag.toNat = some a from ha]
    simp [ifPresent, hlast]
  let dec : Hold → Hold := fun b => { b with remaining := b.remaining - 1 }
  let u : State := countDown { s with cal := { s.cal with second := s.cal.second + 1 } }
  have nodup : s.holds.Nodup := List.Nodup.of_map Hold.tag (hseat.holds.imp fun lt => Nat.ne_of_lt lt)
  have expired : u.expired = [dec a] := by
    have only : s.holds.filter ((fun b : Hold => b.remaining == 0) ∘ dec) = [a] :=
      filter_eq_singleton nodup ham fun b hb => by
        rw [Bool.eq_iff_iff]
        simp only [Function.comp_apply, dec, beq_iff_eq]
        constructor
        · intro out
          by_contra ne
          have := hothers b hb ne
          omega
        · rintro rfl
          omega
    show (s.holds.map dec).filter (fun b => b.remaining == 0) = [dec a]
    rw [List.filter_map, only]
    rfl
  have left : (u.holds.filter fun b => b.tag != (dec a).tag) = (s.holds.filter fun g => g.tag != a.tag).map dec := by
    show (s.holds.map dec).filter _ = _
    rw [List.filter_map]
    rfl
  have ended := endHolds_one endExpired .expire (dec a) (s := u) hx rfl
  rw [left] at ended
  rw [label, secondEvent_released hr (Calendar.tick_counts hsec), carryWork]
  rw [show expireHolds Source.seats u = _ from (expireHolds_one (s := u) hseat.showings expired hx).trans ended]
  unfold secondTail
  rw [watchSecond_runs (by exact hw), recounted_frame]
  simp only [u, countDown, hs.1]
  rfl

end Sys2Proof.Machine
end

section
/-! PROOFS about the requests that change one entry or none: the Catalogue (R19 to R31), the event queues (R186 to R189), the queries
(R56, R76, R116, R134, R171, R182) and the scan of a carousel (R126). -/

namespace Sys2Proof.Machine

/-! ### A request carried out -/

/-- A request whose rule raises nothing. -/
theorem request_quiet {t : Txn} {roles : List Role} {s : State} (h : Taken t roles s) (n kind : Nat) {body : State → Answer × State}
    {a : Answer} {u : State} (e : body (heard t n s) = (a, u)) (hu : u.Settled) :
    (Host.Outcome.next (request t n kind roles body s) : Host.Outcome State Fault Refusal) = .next (replied t kind a u) := by
  have quiet := request_taken_quiet h n kind (body := body) (by rw [e]; exact hu)
  rw [quiet, e]

/-- A request carried out: what its rule raises joins the queues and the journal. -/
theorem request_ends {t : Txn} {roles : List Role} {s : State} (h : Taken t roles s) (n kind : Nat) {body : State → Answer × State}
    {a : Answer} {u : State} (e : body (heard t n s) = (a, u)) :
    (Host.Outcome.next (request t n kind roles body s) : Host.Outcome State Fault Refusal) = .next (replied t kind a (settle u)) := by
  obtain ⟨takes, role, settled⟩ := h
  rw [request_taken takes settled n kind role, e]

theorem clamp_eq (lo hi n : Nat) : clamp lo hi n = max lo (min hi n) := rfl

/-- A value is clamped where it lies outside its range. -/
theorem clamp_ne {lo hi : Nat} (h : lo ≤ hi) (n : Nat) : (max lo (min hi n) != n) = decide (n < lo ∨ hi < n) := by
  rw [Bool.eq_iff_iff, bne_iff_ne, decide_eq_true_iff]
  omega

/-! ### The Catalogue -/

theorem auditoriumBad_false {a : Nat} (h1 : 1 ≤ a) (h24 : a ≤ 24) : auditoriumBad a = false := by
  simp only [auditoriumBad, Bool.or_eq_false_iff, decide_eq_false_iff_not]
  omega

theorem featureBad_false {f : Nat} (h1 : 1 ≤ f) (h128 : f ≤ 128) : featureBad f = false := by
  simp only [featureBad, Bool.or_eq_false_iff, decide_eq_false_iff_not]
  omega

theorem textBad_false {n : Nat} (h1 : 1 ≤ n) (h384 : n ≤ 384) : textBad n = false := by
  simp only [textBad, Bool.or_eq_false_iff, decide_eq_false_iff_not]
  omega

section
variable {s : State} {a : Nat} (h1 : 1 ≤ a) (h24 : a ≤ 24)
include h1 h24

theorem putAuditorium_done {name : Nat} (cap : Nat) (n1 : 1 ≤ name) (n384 : name ≤ 384) (hp : (s.text name).present = true) :
    putAuditorium a name cap s =
      (done (decide (cap < 1 ∨ 1500 < cap)) (u8 a ++ u16 name ++ u16 (max 1 (min 1500 cap)) ++ u8 (s.auditorium a).state.code),
       s.setAuditorium a
        { defined := true, name, capacity := max 1 (min 1500 cap), state := (s.auditorium a).state }) := by
  unfold putAuditorium
  rw [if_neg (by rw [auditoriumBad_false h1 h24, textBad_false n1 n384]; decide), if_neg (by rw [hp]; decide), ← clamp_ne (by omega)]
  rfl

theorem dropAuditorium_done (hd : (s.auditorium a).defined = true) (unused : ∀ x ∈ s.showings, x.auditorium ≠ a) :
    dropAuditorium a s = (done false [], s.setAuditorium a Auditorium.undefined) := by
  have free : s.auditoriumInUse a = false := by simpa [State.auditoriumInUse] using unused
  unfold dropAuditorium
  rw [if_neg (by rw [auditoriumBad_false h1 h24]; decide), if_neg (by rw [hd]; decide), if_neg (by rw [free]; decide)]

theorem setAudState_done (hd : (s.auditorium a).defined = true) (state : AudState) :
    setAudState a state s = (done false (u8 state.code), s.setAuditorium a { s.auditorium a with state }) := by
  unfold setAudState
  rw [if_neg (by rw [auditoriumBad_false h1 h24]; decide), if_neg (by rw [hd]; decide)]

end

section
variable {s : State} {f : Nat} (h1 : 1 ≤ f) (h128 : f ≤ 128)
include h1 h128

theorem putFeature_done {title rating : Nat} (run : Nat) (n1 : 1 ≤ title) (n384 : title ≤ 384) (hr : rating ≤ 15)
    (hp : (s.text title).present = true) :
    putFeature f title rating run s =
      (done (decide (run < 30 ∨ 300 < run)) (u8 f ++ u16 title ++ u8 rating ++ u16 (max 30 (min 300 run))),
       s.setFeature f (some { title, rating, runtime := max 30 (min 300 run) })) := by
  unfold putFeature
  rw [if_neg (by simp [featureBad_false h1 h128, textBad_false n1 n384, hr]), if_neg (by rw [hp]; decide), ← clamp_ne (by omega)]
  rfl

theorem dropFeature_done (hf : (s.feature? f).isSome = true) (unshown : ∀ x ∈ s.showings, x.feature ≠ f)
    (unnamed : ∀ c ∈ s.carousels, ∀ e ∈ c.ring, e.feature ≠ some f) :
    dropFeature f s = (done false [], s.setFeature f none) := by
  have free : s.featureInUse f = false := by simpa [State.featureInUse] using ⟨unshown, unnamed⟩
  unfold dropFeature
  rw [if_neg (by rw [featureBad_false h1 h128]; decide), if_neg (by cases hs : s.feature? f <;> simp_all), if_neg (by rw [free]; decide)]

end

/-- Settles O20: each request is its `_done` equation on the state as heard. -/
theorem catalogueRequestsChangeOneEntry : Obligations.CatalogueRequestsChangeOneEntry := by
  unfold Obligations.CatalogueRequestsChangeOneEntry
  refine ⟨⟨fun t a name cap s ht h1 h24 n1 n384 hp => ?put, fun t a s ht h1 h24 hd unused => ?drop, fun t a s ht h1 h24 hd => ?state⟩,
    fun t f title rating runtime s ht h1 h128 n1 n384 hr hp => ?putF, fun t f s ht h1 h128 hf unshown unnamed => ?dropF⟩ <;>
    obtain settled := ht.settled
  case put =>
    have out := putAuditorium_done (s := heard t 7 s) h1 h24 cap.toNat n1 n384 (by rw [heard_text t 7 settled, hp])
    rw [heard_auditorium t 7 settled] at out
    exact request_quiet ht 7 16 out (heard_settled t 7 settled)
  case drop =>
    have out := dropAuditorium_done (s := heard t 3 s) h1 h24 (by rw [heard_auditorium t 3 settled, hd])
      (by rw [heard_showings t 3 settled]; exact unused)
    exact request_quiet ht 3 17 out (heard_settled t 3 settled)
  case state =>
    have out := setAudState_done (s := heard t 3 s) h1 h24 (by rw [heard_auditorium t 3 settled, hd])
    rw [heard_auditorium t 3 settled] at out
    exact ⟨request_quiet ht 3 18 (out .suspended) (heard_settled t 3 settled),
      request_quiet ht 3 19 (out .inService) (heard_settled t 3 settled)⟩
  case putF =>
    have out := putFeature_done (s := heard t 8 s) h1 h128 runtime.toNat n1 n384 hr (by rw [heard_text t 8 settled, hp])
    exact request_quiet ht 8 20 out (heard_settled t 8 settled)
  case dropF =>
    have out := dropFeature_done (s := heard t 3 s) h1 h128 (by rw [heard_feature? t 3 settled, hf])
      (by rw [heard_showings t 3 settled]; exact unshown) (by rw [heard_carousels t 3 settled]; exact unnamed)
    exact request_quiet ht 3 21 out (heard_settled t 3 settled)

/-! ### The texts -/

theorem modSlot_const {α : Type} (x : α) {l : List α} {n : Nat} (h : 1 ≤ n) : modSlot (fun _ => x) l n = l.set (n - 1) x := by
  obtain ⟨k, rfl⟩ : ∃ k, n = k + 1 := ⟨n - 1, by omega⟩
  exact (List.set_eq_modify x k l).symm

/-- R28: the ids that a role among those that may write texts owns. -/
theorem ownsText_of {r : Role} {id : Nat} (hr : r ∈ [Role.schedule, .desk, .service]) (h1 : 1 ≤ id) (h384 : id ≤ 384)
    (hs : r = .schedule → id ≤ 255) (hd : r = .desk → 256 ≤ id) : r.ownsText id = true := by
  cases r with
  | schedule => exact decide_eq_true ⟨h1, hs rfl⟩
  | desk => exact decide_eq_true ⟨hd rfl, h384⟩
  | service => exact decide_eq_true ⟨h1, h384⟩
  | sales => simp at hr

/-- A text stored and its mark cleared (R29, R30). -/
theorem clearMarks_setText {id : Nat} (h1 : 1 ≤ id) (e : TextEntry) (s : State) : clearMarks id (s.setText id e) = { s with
    catalogue := { s.catalogue with texts := s.catalogue.texts.set (id - 1) e }
    panels := s.panels.map fun p => { p with current := p.current.filter fun i => decide (i ≠ id) } } := by
  have cleared : ∀ i : Nat, (i != id) = decide (i ≠ id) := fun i => by rw [Bool.eq_iff_iff, bne_iff_ne, decide_eq_true_iff]
  unfold clearMarks State.setText
  rw [modSlot_const e h1]
  simp only [cleared]

theorem putText_done {s : State} {p : Port} {id : Nat} {bytes : List Byte} (h1 : 1 ≤ id) (h384 : id ≤ 384) (hb : bytes.length ≤ 64)
    (owns : (s.port p).role.ownsText id = true) :
    putText p id bytes s = (done false (u8 (((s.text id).revision + 1) % 16)),
      clearMarks id (s.setText id { present := true, bytes, revision := ((s.text id).revision + 1) % 16 })) := by
  unfold putText
  rw [if_neg (by simp [textBad_false h1 h384, hb]), if_neg (by rw [owns]; decide)]

theorem dropText_done {s : State} {p : Port} {id : Nat} (h1 : 1 ≤ id) (h384 : id ≤ 384) (owns : (s.port p).role.ownsText id = true)
    (hp : (s.text id).present = true) (unused : s.textInUse id = false) :
    dropText p id s = (done false [],
      clearMarks id (s.setText id { present := false, bytes := [], revision := (s.text id).revision })) := by
  unfold dropText
  rw [if_neg (by simp [textBad_false h1 h384]), if_neg (by rw [owns]; decide), if_neg (by rw [hp]; decide), if_neg (by rw [unused]; decide)]

theorem textInUse_false {s : State} {id : Nat} (ha : ∀ a ∈ s.catalogue.auditoriums, a.defined = true → a.name ≠ id)
    (hf : ∀ f, some f ∈ s.catalogue.features → f.title ≠ id) (hn : ∀ n ∈ s.notices.table, n.content ≠ .text id) :
    s.textInUse id = false := by
  have features : ∀ f ∈ s.catalogue.features, (f.elim false fun x => x.title == id) = false := fun f hm => by
    cases f with
    | none => rfl
    | some x => simpa using hf x hm
  simp only [State.textInUse, Bool.or_eq_false_iff, List.any_eq_false, Bool.not_eq_true, Bool.and_eq_true, beq_iff_eq, not_and]
  exact ⟨⟨ha, features⟩, hn⟩

/-- Settles O21: `putText_done` and `dropText_done`, the mark cleared by `clearMarks_setText`. -/
theorem textRequestsChangeOneText : Obligations.TextRequestsChangeOneText := by
  unfold Obligations.TextRequestsChangeOneText
  refine ⟨fun t id bytes s ht h1 h384 hb hs hd => ?put, fun t id s ht h1 h384 hs hd hp ha hf hn => ?drop⟩ <;>
    obtain ⟨takes, role, settled⟩ := ht
  case put =>
    have owns : ((heard t (5 + bytes.length) s).port t.port).role.ownsText id.toNat = true := by
      rw [heard_role t _ settled]
      exact ownsText_of role h1 h384 hs hd
    have out := putText_done h1 h384 hb owns
    rw [heard_text t _ settled, clearMarks_setText h1] at out
    exact request_quiet ⟨takes, role, settled⟩ _ 22 out (heard_settled t _ settled)
  case drop =>
    have owns : ((heard t 4 s).port t.port).role.ownsText id.toNat = true := by
      rw [heard_role t _ settled]
      exact ownsText_of role h1 h384 hs hd
    have unused : (heard t 4 s).textInUse id.toNat = false :=
      textInUse_false (by rw [heard_catalogue t 4 settled]; exact ha) (by rw [heard_catalogue t 4 settled]; exact hf)
        (by rw [heard_notices t 4 settled]; exact hn)
    have out := dropText_done h1 h384 owns (by rw [heard_text t 4 settled, hp]) unused
    rw [heard_text t 4 settled, clearMarks_setText h1] at out
    exact request_quiet ⟨takes, role, settled⟩ 4 23 out (heard_settled t 4 settled)

/-! ### The event queues -/

theorem setFilter_taken {p : Port} {l : List (Byte × Half)} (h5 : l.length ≤ 5) (h19 : ∀ x ∈ l, x.1.toNat ≤ 19) (s : State) :
    setFilter p l s = (done false (u8 l.length ++ l.flatMap fun x => u8 x.1.toNat ++ u16 x.2.toNat),
      s.modQueue p fun q => { q with filter := l.map fun x => { kind := x.1.toNat, number := x.2.toNat } }) := by
  have few : ¬ (5 < l.length ∨ l.any (fun x => decide (19 < x.1.toNat)) = true) := by simpa using ⟨h5, fun a b hm => h19 (a, b) hm⟩
  unfold setFilter
  rw [if_neg few]
  unfold filterOf
  rw [List.flatMap_map]
  rfl

theorem setFilter_refused {p : Port} {l : List (Byte × Half)} (h : 5 < l.length ∨ ∃ x ∈ l, 19 < x.1.toNat) (s : State) :
    setFilter p l s = (refuse .malformed, s) :=
  if_pos (h.imp_right fun ⟨x, hx, h19⟩ => List.any_eq_true.2 ⟨x, hx, decide_eq_true h19⟩)

/-- R186: RESET and BOARD CLEARED pass every filter. -/
theorem accepts_always {r : EventRecord} (h : r.kind = .reset ∨ r.kind = .boardCleared) (role : Role) (filter : List FilterPair) :
    accepts role filter r = true := by
  unfold accepts
  obtain h | h := h <;> rw [h] <;> rfl

theorem accepts_written {r : EventRecord} (h1 : r.kind ≠ .reset) (h2 : r.kind ≠ .boardCleared) (role : Role) {filter : List FilterPair}
    (h : filter ≠ []) : accepts role filter r = true ↔
      ∃ f ∈ filter, (f.kind = 0 ∨ f.kind = r.kind.code) ∧ (f.number = 0 ∨ f.number = r.number) := by
  cases filter with
  | nil => exact absurd rfl h
  | cons f l =>
    have n1 : (r.kind == .reset) = false := by simpa using h1
    have n2 : (r.kind == .boardCleared) = false := by simpa using h2
    unfold accepts
    rw [n1, n2, Bool.false_or, Bool.false_or, List.any_eq_true]
    simp only [FilterPair.accepts, Bool.and_eq_true, Bool.or_eq_true, beq_iff_eq]

theorem accepts_default {r : EventRecord} (h1 : r.kind ≠ .reset) (h2 : r.kind ≠ .boardCleared) (role : Role) :
    accepts role [] r = defaultAccepts role r.kind := by
  have n1 : (r.kind == .reset) = false := by simpa using h1
  have n2 : (r.kind == .boardCleared) = false := by simpa using h2
  unfold accepts
  rw [n1, n2, Bool.false_or, Bool.false_or]

/-- R186's table of default sets. -/
theorem defaultAccepts_iff (role : Role) (k : EventKind) : defaultAccepts role k = true ↔
    role = .desk ∨ role = .service ∨
    (role = .sales ∧ k ∈ [.showingState, .band, .oversold, .holdEnded, .salesStale, .salesResumed]) ∨
    (role = .schedule ∧ k ∈ [.showingState, .showingFreed, .panelState, .layoutClamped, .clipFault, .clipTimeout, .carouselDry,
      .dayStart, .clockLimit]) := by
  cases role <;> cases k <;> decide

theorem offerAll_get (ports : PerPort PortState) (q : PerPort PortQueue) (r : EventRecord) (p : Port) :
    (offerAll ports q r).get p = if accepts (ports.get p).role (q.get p).filter r then (q.get p).push r else q.get p := by
  cases p <;> rfl

theorem readEvents_eq (p : Port) (count : Nat) (s : State) : readEvents p count s =
    (done (decide (12 < count))
      (mark (s.queue p).overrun ++ u8 (min (min 12 count) (s.queue p).records.length) ++ u8 ((s.queue p).records.length - min 12 count)
        ++ ((s.queue p).records.take (min 12 count)).flatMap EventRecord.bytes),
     s.modQueue p fun q => { q with records := q.records.drop (min 12 count), overrun := false }) := by
  unfold readEvents
  simp only [List.length_take, List.length_drop]

/-- Settles O8: the two requests, the filter by its form, and the queues port by port. -/
theorem eventRequestsServeTheQueue : Obligations.EventRequestsServeTheQueue := by
  unfold Obligations.EventRequestsServeTheQueue
  refine ⟨fun t count s ht => ?read, fun t l s ht h5 h19 => ?filter, fun t l s ht h => ?refused,
    fun role filter r => ⟨fun h => accepts_always h role filter, fun h1 h2 => ⟨accepts_written h1 h2 role, ?default⟩⟩, offerAll_get⟩
  case read => exact request_quiet ht 3 2 (readEvents_eq _ _ _) (heard_settled t 3 ht.settled)
  case filter => exact request_quiet ht _ 3 (setFilter_taken h5 h19 _) (heard_settled t _ ht.settled)
  case refused => exact request_quiet ht _ 3 (setFilter_refused h _) (heard_settled t _ ht.settled)
  case default =>
    rintro rfl
    rw [accepts_default h1 h2]
    exact defaultAccepts_iff role r.kind

/-! ### The queries -/

section
variable (t : Txn) (n : Nat) {s : State} (h : s.Settled)
include h

theorem heard_showingData (x : Showing) : (heard t n s).showingData x = s.showingData x := by
  unfold State.showingData State.suspended State.delayedNotice
  rw [heard_auditorium t n h, heard_notices t n h]

theorem heard_noticeData (x : Notice) : (heard t n s).noticeData x = s.noticeData x := by
  unfold State.noticeData State.activationPlace
  rw [heard_notices t n h]

theorem heard_noticeTableData : (heard t n s).noticeTableData = s.noticeTableData := by
  unfold State.noticeTableData State.takeover
  rw [heard_notices t n h]

end

theorem queryShowing_done {s : State} {id : Nat} {x : Showing} (hid : id ≠ 0) (hx : s.showing? id = some x) :
    queryShowing id s = (done false (s.showingData x), s) := by
  unfold queryShowing
  rw [if_neg hid, hx]

theorem queryHold_done {s : State} {tag : Nat} {a : Hold} (htag : tag ≠ 0) (ha : s.hold? tag = some a) :
    queryHold tag s = (done false (u16 a.tag ++ u16 a.showing ++ u8 a.count ++ u16 a.remaining), s) := by
  unfold queryHold
  rw [if_neg htag, ha]

theorem queryNotice_done {s : State} {id : Nat} {n : Notice} (hid : id ≠ 0) (hn : s.notice? id = some n) :
    queryNotice id s = (done false (s.noticeData n), s) := by
  unfold queryNotice
  rw [if_neg hid, hn]

theorem queryCarousel_done {k start : Nat} (h1 : 1 ≤ k) (h8 : k ≤ 8) (h31 : start ≤ 31) (s : State) :
    queryCarousel k start s = (done false (s.carouselData k start), s) :=
  if_neg (by
    rw [Bool.or_eq_true, carouselBad_iff, decide_eq_true_iff]
    omega)

theorem queryPanel_done {p : Nat} (h1 : 1 ≤ p) (h12 : p ≤ 12) (s : State) :
    queryPanel p s = (done false (profileBytes p (s.panel p).profile ++ s.contextData p ++ s.linkData p), clearFaults p s) :=
  if_neg (by
    simp only [panelBad, Bool.or_eq_true, decide_eq_true_iff]
    omega)

/-- Settles O53: no query raises anything, and what each reads is as the message found it. -/
theorem queriesAnswerTheStateAsItStands : Obligations.QueriesAnswerTheStateAsItStands := by
  unfold Obligations.QueriesAnswerTheStateAsItStands
  refine ⟨⟨fun t id x s ht hid hx => ?showing, fun t tag a s ht htag ha => ?hold,
      fun t id s ht => ⟨fun hid => ?table, fun n hid hn => ?notice⟩⟩,
    fun t s ht => ⟨?board, fun k start h1 h8 h31 => ?carousel, fun p h1 h12 => ?panel⟩⟩ <;> have settled := ht.settled
  case showing =>
    have out := queryShowing_done hid ((heard_showing? t 4 settled _).trans hx)
    rw [heard_showingData t 4 settled] at out
    exact request_quiet ht 4 5 out (heard_settled t 4 settled)
  case hold =>
    exact request_quiet ht 4 6 (queryHold_done htag ((heard_hold? t 4 settled _).trans ha)) (heard_settled t 4 settled)
  case table =>
    have out : queryNotice id.toNat (heard t 3 s) = _ := if_pos hid
    rw [heard_noticeTableData t 3 settled] at out
    exact request_quiet ht 3 7 out (heard_settled t 3 settled)
  case notice =>
    have out := queryNotice_done hid ((heard_notice? t 3 settled _).trans hn)
    rw [heard_noticeData t 3 settled] at out
    exact request_quiet ht 3 7 out (heard_settled t 3 settled)
  case board => exact request_quiet ht 2 4 rfl (heard_settled t 2 settled)
  case carousel => exact request_quiet ht 4 8 (queryCarousel_done h1 h8 h31 _) (heard_settled t 4 settled)
  case panel =>
    have out := queryPanel_done h1 h12 (heard t 3 s)
    rw [heard_panel t 3 settled] at out
    exact request_quiet ht 3 9 out (heard_settled t 3 settled)

/-! ### The scan of a carousel -/

/-- What a take finds at a position (R126). -/
def State.foundAt (s : State) (c : Carousel) (i : Nat) : Option (Nat × Entry) :=
  match c.ring[i]? with
  | some e => if s.eligible c.horizon e then some (i, e) else none
  | none => none

theorem State.scan_eq (s : State) (c : Carousel) : s.scan c = (scanOrder c.ring.length c.cursor).findSome? (s.foundAt c) := by
  unfold State.scan State.foundAt
  rfl

theorem foundAt_some {s : State} {c : Carousel} {i j : Nat} {e : Entry} (h : s.foundAt c j = some (i, e)) :
    i = j ∧ c.ring[j]? = some e ∧ s.eligible c.horizon e = true := by
  unfold State.foundAt at h
  split at h
  next d hd =>
    split at h
    next he =>
      obtain ⟨rfl, rfl⟩ : j = i ∧ d = e := by simpa using h
      exact ⟨rfl, hd, he⟩
    · cases h
  · cases h

theorem foundAt_none {s : State} {c : Carousel} {j : Nat} :
    s.foundAt c j = none ↔ ∀ d, c.ring[j]? = some d → s.eligible c.horizon d = false := by
  unfold State.foundAt
  cases h : c.ring[j]? with
  | none => simp
  | some d => simp

theorem scanOrder_getElem? {count cursor n : Nat} (h : n < count) : (scanOrder count cursor)[n]? = some ((cursor + n) % count) := by
  simp [scanOrder, h]

/-- A scan meets every position of the ring. -/
theorem mem_scanOrder {count cursor j : Nat} (hj : j < count) : j ∈ scanOrder count cursor := by
  simp only [scanOrder, List.mem_map, List.mem_range]
  refine ⟨(j + (count - cursor % count)) % count, Nat.mod_lt _ (by omega), ?_⟩
  have := Nat.mod_lt cursor (show 0 < count by omega)
  rw [Nat.add_mod, Nat.mod_mod, Nat.add_mod_mod, show cursor % count + (j + (count - cursor % count)) = j + count by omega,
    Nat.add_mod_right, Nat.mod_eq_of_lt hj]

/-- Settles O42: `findSome?` stops at the first position found, and meets them all. -/
theorem scanFindsTheFirstEligible : Obligations.ScanFindsTheFirstEligible := by
  unfold Obligations.ScanFindsTheFirstEligible
  refine fun s c _ => ⟨fun i e found => ?some, ?none⟩
  case some =>
    rw [State.scan_eq] at found
    obtain ⟨before, j, after, order, at_j, none_before⟩ := List.findSome?_eq_some_iff.1 found
    obtain ⟨rfl, ring, eligible⟩ := foundAt_some at_j
    have total : before.length + (after.length + 1) = c.ring.length := by
      have := congrArg List.length order
      simpa [scanOrder] using this.symm
    have place : before.length < c.ring.length := by omega
    refine ⟨ring, eligible, before.length, place, ?_, fun m hm d hd => ?_⟩
    · have here := scanOrder_getElem? (cursor := c.cursor) place
      rw [order, List.getElem?_append_right le_rfl, Nat.sub_self] at here
      simpa using here
    · have there := scanOrder_getElem? (cursor := c.cursor) (show m < c.ring.length by omega)
      rw [order, List.getElem?_append_left hm] at there
      exact foundAt_none.1 (none_before _ (List.mem_of_getElem? there)) d hd
  case none =>
    rw [State.scan_eq, List.findSome?_eq_none_iff]
    constructor
    · intro none d hd
      obtain ⟨j, hj, rfl⟩ := List.mem_iff_getElem.1 hd
      exact foundAt_none.1 (none j (mem_scanOrder hj)) _ (List.getElem?_eq_getElem hj)
    · exact fun none j _ => foundAt_none.2 fun d hd => none d (List.mem_of_getElem? hd)

end Sys2Proof.Machine
end

section
/-! PROOFS about the whole board: the hushed marks re-judged together, the release of a reset (R5, R16, R190), WAKE (R12, R14, R146) and
BOARD CLEAR (R17, R181). -/

namespace Sys2Proof.Machine

/-! ### Every hushed mark re-judged -/

theorem ZoneView.judged_hushed (v : ZoneView) : v.judged.hushed = v.hushed := by
  unfold ZoneView.judged ZoneView.stop
  split
  · rfl
  · split
    · rfl
    · split <;> rfl

theorem ZoneView.hush_hushed (due : Bool) (v : ZoneView) : (v.hush due).hushed = due := by
  unfold ZoneView.hush
  rw [ZoneView.judged_hushed]
  split
  · unfold ZoneView.stop
    split <;> rfl
  · rfl

/-- What a hushed mark follows stands in the calendar, the profiles and the takeover table. -/
theorem State.hushDue_congr {s t : State} (hcal : t.cal = s.cal) (hprofiles : t.panels.map Panel.profile = s.panels.map Panel.profile)
    (htake : t.notices = s.notices) (p : Nat) : t.hushDue p = s.hushDue p := by
  have profile : (t.panel p).profile = (s.panel p).profile := by
    have := congrArg (slot Panel.atReset.profile · p) hprofiles
    simp only [slot_map Panel.profile Panel.atReset Panel.atReset.profile _ p rfl] at this
    exact this
  unfold State.hushDue
  rw [hcal, profile, State.takeover_congr (s := s) (t := t) (by rw [htake])]

/-- Each hushed mark follows HUSH, WAKE, the profile and the takeover table (R146). -/
theorem judgeHushAll_hushed {s : State} (hs : s.Sized) {p : Nat} (hp : p ∈ panelNumbers) :
    ((judgeHushAll s).panel p).hushed = s.hushDue p := by
  have follows : ∀ (q : Nat) (u : State), u.Sized ∧ (∀ i, u.hushDue i = s.hushDue i) →
      (judgeHush q u).Sized ∧ ∀ i, (judgeHush q u).hushDue i = s.hushDue i := fun q u ⟨k, e⟩ => by
    refine ⟨(judgeHush_work q u).sized k, fun i => ?_⟩
    rw [← e i]
    obtain ⟨cs, ps, qs, only⟩ := judgeHush_only q u
    exact State.hushDue_congr (by rw [only]) (judgeHush_work q u).profiles (by rw [only]) i
  have range : ∀ {q : Nat} {u : State}, u.Sized → q ∈ panelNumbers → 1 ≤ q ∧ q ≤ u.panels.length := fun k hq => by
    rw [k.panels]
    exact panelNumbers_range hq
  obtain ⟨-, post, -⟩ := foldl_views (f := fun q t => judgeHush q t) (J := fun u => u.Sized ∧ ∀ i, u.hushDue i = s.hushDue i)
    (Pre := fun _ _ => True) (Post := fun q v => v.hushed = s.hushDue q) follows
    (fun q i u k hq hi => by rw [judgeHush_view q u (range k.1 hq), if_neg hi])
    (fun q u k hq _ => by rw [judgeHush_view q u (range k.1 hq), if_pos rfl, ZoneView.hush_hushed, k.2])
    panelNumbers (by decide) (fun _ h => h) s ⟨hs, fun _ => rfl⟩ (fun _ _ => trivial)
  exact post p hp

/-! ### A board without plays -/

/-- Every zone is IDLE, and no play stands. -/
structure State.Bare (s : State) : Prop where
  zones : ∀ c ∈ s.panels, c.zone = .idle
  plays : ∀ r ∈ s.plays, r = none

variable {s : State}

theorem slot_of_all {α : Type} {d : α} {l : List α} {P : α → Prop} (hd : P d) (h : ∀ x ∈ l, P x) (n : Nat) : P (slot d l n) := by
  cases n with
  | zero => exact hd
  | succ k =>
    by_cases hk : k < l.length
    · exact h _ (slot_mem d (by omega) (by omega))
    · have out : slot d l (k + 1) = d := List.getD_eq_default l d (by omega)
      rwa [out]

theorem State.Bare.zone (h : s.Bare) (p : Nat) : (s.panel p).zone = .idle :=
  slot_of_all (P := fun c : Panel => c.zone = .idle) rfl h.zones p

theorem State.Bare.play? (h : s.Bare) (p : Nat) : s.play? p = none :=
  slot_of_all (P := fun r : Option Play => r = none) rfl h.plays p

theorem stopZone_idle {p : Nat} (h : (s.panel p).zone = .idle) : stopZone p s = s := by
  unfold stopZone endPlay
  rw [h]

theorem judgeMember_none {p : Nat} (h : s.play? p = none) : judgeMember p s = s := by
  unfold judgeMember
  rw [h]

/-- Marking a panel keeps the board bare. -/
theorem State.Bare.marked (h : s.Bare) (p : Nat) (due : Bool) : (s.modPanel p fun c => { c with hushed := due }).Bare := by
  refine ⟨fun c hc => ?_, h.plays⟩
  have zones := map_modSlot Panel.zone (fun c : Panel => { c with hushed := due }) (fun _ => rfl) s.panels p
  have mem : c.zone ∈ (modSlot (fun c : Panel => { c with hushed := due }) s.panels p).map Panel.zone := List.mem_map_of_mem hc
  rw [zones] at mem
  obtain ⟨d, hd, e⟩ := List.mem_map.1 mem
  rw [← e]
  exact h.zones d hd

theorem judgeHush_bare (h : s.Bare) (p : Nat) : judgeHush p s = s.modPanel p fun c => { c with hushed := s.hushDue p } := by
  have marked := h.marked p (s.hushDue p)
  unfold judgeHush
  dsimp only
  rw [stopZone_idle (marked.zone p), ite_self, judgeMember_none (marked.play? p)]

/-- The context of panel p under the hushed mark that is due. -/
def State.rehushed (s : State) (p : Nat) (c : Panel) : Panel := { c with hushed := s.hushDue p }

/-- On a bare board the hushed marks alone are judged. -/
theorem judgeHushAll_bare (h : s.Bare) : judgeHushAll s =
    { s with panels := panelNumbers.foldl (fun ps p => modSlot (s.rehushed p) ps p) s.panels } := by
  unfold State.rehushed
  unfold judgeHushAll
  generalize hd : s.hushDue = due
  generalize panelNumbers = l
  induction l generalizing s with
  | nil => rfl
  | cons p l ih =>
    rw [List.foldl_cons, judgeHush_bare h p, ih (h.marked p _), hd]
    · rfl
    · funext q
      rw [← hd]
      have profiles := map_modSlot Panel.profile (fun c : Panel => { c with hushed := s.hushDue p }) (fun _ => rfl) s.panels p
      exact State.hushDue_congr (s := s) (t := s.modPanel p fun c => { c with hushed := s.hushDue p }) rfl profiles rfl q

/-- Entries of a table changed one by one. -/
theorem foldl_modSlot_getElem? {α : Type} (f : Nat → α → α) {ns : List Nat} (hn : ns.Nodup) (l : List α) (i : Nat) :
    (ns.foldl (fun l n => modSlot (f n) l n) l)[i]? = if i + 1 ∈ ns then l[i]?.map (f (i + 1)) else l[i]? := by
  induction ns generalizing l with
  | nil => simp
  | cons n ns ih =>
    obtain ⟨fresh, hn'⟩ := List.nodup_cons.1 hn
    rw [List.foldl_cons, ih hn']
    cases n with
    | zero => simp [modSlot]
    | succ k =>
      by_cases e : i = k
      · subst e
        simp [fresh, modSlot]
      · have : i + 1 ≠ k + 1 := by omega
        simp [e, modSlot, show ¬ k = i from fun h => e h.symm]

/-- On a bare board whose takeover table is empty every hushed mark follows its profile. -/
theorem judgeHushAll_map (h : s.Bare) (hlen : s.panels.length = 12) (free : ∀ p ∈ panelNumbers, s.takeover p = none) :
    judgeHushAll s =
      { s with panels := s.panels.map fun c => { c with hushed := s.cal.hush && !s.cal.wake && !c.profile.alwaysLit } } := by
  rw [judgeHushAll_bare h]
  suffices panelNumbers.foldl (fun ps p => modSlot (s.rehushed p) ps p) s.panels =
      s.panels.map fun c => { c with hushed := s.cal.hush && !s.cal.wake && !c.profile.alwaysLit } by rw [this]
  refine List.ext_getElem? fun i => ?_
  rw [foldl_modSlot_getElem? s.rehushed (by decide), List.getElem?_map]
  by_cases hi : i < 12
  · have member : i + 1 ∈ panelNumbers := by
      simp only [panelNumbers, List.mem_cons, List.not_mem_nil, or_false]
      omega
    have found : s.panels[i]? = some (s.panel (i + 1)) := by
      rw [List.getElem?_eq_getElem (by omega)]
      exact congrArg some (List.getD_eq_getElem s.panels Panel.atReset (by omega)).symm
    rw [if_pos member, found, Option.map_some, Option.map_some, State.rehushed, State.hushDue, free _ member]
    simp
  · have beyond : s.panels[i]? = none := List.getElem?_eq_none (by omega)
    rw [beyond, Option.map_none, Option.map_none, ite_self]

theorem Calendar.atRelease_eq (c : Calendar) : c.atRelease =
    { c with
      hush := decide (c.clock = .running) && lobbyClosed c.openMin c.closeMin c.wall
      d0 := if c.clock = .unset then 0 else if c.held then c.d0 else businessBase c.m c.h0 } := by
  unfold Calendar.atRelease
  split
  next h => rw [h]; rfl
  next h => rw [h]; rfl

/-- Settles O11: the board is bare right after a reset, so the release judges the hushed marks alone. -/
theorem releaseStartsTheBoard : Obligations.ReleaseStartsTheBoard := by
  unfold Obligations.ReleaseStartsTheBoard
  intro s
  constructor
  · intro hr
    show Host.Outcome.next _ = _
    rw [hr]
  · intro kind hr hlen hzones hplays free
    dsimp only
    have judged := judgeHushAll_map
      (s := { s with rstn := .released, cal := s.cal.atRelease, core := { s.core with nextTick := some (s.core.now + 100) } })
      ⟨hzones, hplays⟩ hlen free
    have taken : exec .resetRelease s = .next (releaseReset kind s) := by
      show Host.Outcome.next _ = _
      rw [hr]
    rw [taken, releaseReset, judged]
    have wake : s.cal.atRelease.wake = s.cal.wake := by
      unfold Calendar.atRelease
      split <;> rfl
    have tagged : s.cal.atRelease.m = s.cal.m ∧ s.cal.atRelease.second = s.cal.second := by
      unfold Calendar.atRelease
      split <;> exact ⟨rfl, rfl⟩
    have detail : resetDetail kind = if kind = .powerOn then 1 else 2 := by cases kind <;> rfl
    simp only [State.record, wake, tagged, detail]
    rw [Calendar.atRelease_eq]
    rfl

/-! ### WAKE -/

/-- A message of a port without the role SALES is no sign of life of one (R77). -/
theorem heard_unsold {t : Txn} {roles : List Role} (n : Nat) (h : Taken t roles s) (unsold : .sales ∉ roles) :
    heard t n s = s.modPort t.port (clockOut (n + t.surplus)) := by
  refine signOfLife_other fun e => unsold ?_
  rw [State.role_modPort t.port t.port _ s fun x => clockOut_role _ x] at e
  exact e ▸ h.2.1

/-- Settles O17: HUSH and WAKE change once, and with WAKE no hushed mark is due. -/
theorem wakeLightsThePanels : Obligations.WakeLightsThePanels := by
  unfold Obligations.WakeLightsThePanels
  intro t s ht hs
  have settled := ht.settled
  have cal := heard_cal t 2 settled
  have body : wakeBoard (heard t 2 s) = (done false (mark s.cal.hush ++ [1]), setHushWake s.cal.hush true (heard t 2 s)) := by
    unfold wakeBoard
    rw [cal]
    rfl
  constructor
  · intro hw
    exact request_quiet ht 2 11 (body.trans (by rw [setHushWake_same (by rw [cal]) (by rw [cal, hw])])) (heard_settled t 2 settled)
  · intro hw
    have still := heard_unsold 2 ht (by decide)
    obtain ⟨cs, ps, qs, only⟩ := setHushWake_changed (s := heard t 2 s) (hush := s.cal.hush) (wake := true)
      (by rw [cal, hw]; simp)
    have lit : ∀ p ∈ panelNumbers, ((setHushWake s.cal.hush true (heard t 2 s)).panel p).hushed = false := fun p hp => by
      unfold setHushWake
      rw [if_neg (by rw [cal, hw]; simp), judgeHushAll_hushed
        ⟨by simp [heard_panels t 2 settled, hs.panels], by simp [heard_plays t 2 settled, hs.plays],
          by simp [heard_links t 2 settled, hs.links]⟩ hp]
      simp [State.hushDue]
    have ended := settle_one (s := setHushWake s.cal.hush true (heard t 2 s))
      (x := (.calendar, s.record .hush 0 (hushPair s.cal.hush true)))
      (by rw [only, ← heard_record t 2 settled]; simp [(heard_settled t 2 settled).1])
      (by rw [only]; exact (heard_settled t 2 settled).2)
    refine ⟨_, request_ends ht 2 11 body, ?_, lit, ?_, ?_⟩
    · rw [only, cal]
      rfl
    · rw [ended, only]
      show offerAll (heard t 2 s).ports (heard t 2 s).queues _ = _
      rw [offerAll_role (heard_role t 2 settled), still]
      unfold State.record
      cases s.cal.hush <;> rfl
    · rw [ended, only]
      have quiet := heard_settled t 2 settled
      generalize heard t 2 s = h at quiet ⊢
      obtain ⟨ho, hj⟩ := quiet
      cases h
      dsimp only at ho hj
      subst ho hj
      rfl

/-! ### BOARD CLEAR -/

/-- A panel's context with its hushed mark off. -/
def Panel.unhushed (c : Panel) : Panel := { c with hushed := false }

theorem State.Bare.of_unhushed {t : State} (h : s.Bare) (e : t.panels.map Panel.unhushed = s.panels.map Panel.unhushed)
    (hp : t.plays = s.plays) : t.Bare := by
  refine ⟨fun c hc => ?_, hp ▸ h.plays⟩
  have mem : c.unhushed ∈ t.panels.map Panel.unhushed := List.mem_map_of_mem hc
  rw [e] at mem
  obtain ⟨d, hd, same⟩ := List.mem_map.1 mem
  have zone : d.unhushed.zone = c.unhushed.zone := congrArg Panel.zone same
  exact zone.symm.trans (h.zones d hd)

/-- On a bare board the judging of the hushed marks changes those marks alone. -/
theorem judgeHushAll_unhushed (h : s.Bare) :
    ∃ ps, judgeHushAll s = { s with panels := ps } ∧ ps.map Panel.unhushed = s.panels.map Panel.unhushed := by
  refine ⟨_, judgeHushAll_bare h, ?_⟩
  generalize panelNumbers = l
  generalize s.panels = ps
  induction l generalizing ps with
  | nil => rfl
  | cons p l ih => exact (ih _).trans (map_modSlot Panel.unhushed (s.rehushed p) (fun _ => rfl) ps p)

theorem emptyBoard_bare (s : State) : (emptyBoard s).Bare := by
  constructor
  · intro c hc
    obtain ⟨d, -, rfl⟩ := List.mem_map.1 hc
    rfl
  · intro r hr
    obtain ⟨d, -, rfl⟩ := List.mem_map.1 hr
    rfl

/-- HUSH set from the wall minute on a bare board changes it, the hushed marks and the records raised. -/
theorem hushFrom_bare (w : Nat) (h : s.Bare) : ∃ ps box, ps.map Panel.unhushed = s.panels.map Panel.unhushed ∧
    (s.cal.hush = s.cal.closedAt w → box = s.outbox) ∧
    hushFrom w s.cal.wake s = { s with cal := { s.cal with hush := s.cal.closedAt w }, panels := ps, outbox := box } := by
  unfold hushFrom setHushWake
  split
  next same => exact ⟨s.panels, s.outbox, rfl, fun _ => rfl, rfl⟩
  next moved =>
    obtain ⟨ps, e, hps⟩ := judgeHushAll_unhushed (s := raise .calendar .hush 0 (hushPair (s.cal.closedAt w) s.cal.wake)
      { s with cal := { s.cal with hush := s.cal.closedAt w } }) ⟨h.zones, h.plays⟩
    exact ⟨ps, _, hps, fun k => absurd ⟨k, rfl⟩ moved, e⟩

/-- What a BOARD CLEAR leaves of the calendar (R17). -/
def Calendar.rebased (c : Calendar) : Calendar :=
  if c.clock = .running then
    { c with
      m := 1440 + c.wall
      held := false
      d0 := businessBase (1440 + c.wall) c.h0
      hush := lobbyClosed c.openMin c.closeMin c.wall }
  else c

theorem clearCalendar_eq (c : Calendar) : clearCalendar c =
    if c.clock = .running then { c with m := 1440 + c.wall, held := false, d0 := businessBase (1440 + c.wall) c.h0 } else c := by
  unfold clearCalendar
  split
  next h => rw [if_neg (by rw [h]; decide)]
  next h => rw [if_pos h]

/-- The emptied board with HUSH set from the wall minute and the hushed marks judged. -/
def State.emptied (s : State) : State :=
  judgeHushAll (match (emptyBoard s).cal.clock with
    | .running => hushFrom (emptyBoard s).cal.wall (emptyBoard s).cal.wake (emptyBoard s)
    | .unset => emptyBoard s)

theorem State.emptied_eq (s : State) : ∃ ps box, ps.map Panel.unhushed = (s.panels.map Panel.cleared).map Panel.unhushed ∧
    (s.cal.rebased.hush = s.cal.hush → box = s.outbox) ∧
    s.emptied = { emptyBoard s with cal := s.cal.rebased, panels := ps, outbox := box } := by
  have bare := emptyBoard_bare s
  have cal : (emptyBoard s).cal = clearCalendar s.cal := rfl
  have clock : (emptyBoard s).cal.clock = s.cal.clock := by
    rw [cal, clearCalendar_eq]
    split <;> rfl
  by_cases hc : s.cal.clock = .running
  · have running : s.emptied = judgeHushAll (hushFrom (emptyBoard s).cal.wall (emptyBoard s).cal.wake (emptyBoard s)) := by
      unfold State.emptied
      rw [clock, hc]
    have rebased : s.cal.rebased = { (emptyBoard s).cal with hush := (emptyBoard s).cal.closedAt (emptyBoard s).cal.wall } := by
      rw [cal, clearCalendar_eq, if_pos hc, Calendar.rebased, if_pos hc]
      rfl
    obtain ⟨ps, box, hps, hbox, e⟩ := hushFrom_bare (emptyBoard s).cal.wall bare
    obtain ⟨qs, judged, hqs⟩ := judgeHushAll_unhushed
      (s := hushFrom (emptyBoard s).cal.wall (emptyBoard s).cal.wake (emptyBoard s))
      (bare.of_unhushed (by rw [e]; exact hps) (by rw [e]))
    refine ⟨qs, box, ?_, fun k => hbox ?_, ?_⟩
    · rw [e] at hqs
      exact hqs.trans hps
    · rw [rebased] at k
      have kept : (emptyBoard s).cal.hush = s.cal.hush := by rw [cal, clearCalendar_eq, if_pos hc]
      exact kept.trans k.symm
    · rw [running, judged, e, rebased]
  · have unset : s.cal.clock = .unset := by
      cases h : s.cal.clock with
      | unset => rfl
      | running => exact absurd h hc
    have stopped : s.emptied = judgeHushAll (emptyBoard s) := by
      unfold State.emptied
      rw [clock, unset]
    have rebased : s.cal.rebased = (emptyBoard s).cal := by
      rw [cal, clearCalendar_eq, if_neg hc, Calendar.rebased, if_neg hc]
    obtain ⟨ps, e, hps⟩ := judgeHushAll_unhushed bare
    exact ⟨ps, s.outbox, hps, fun _ => rfl, by rw [stopped, e, rebased]; rfl⟩

/-- The board minute in the reply to a BOARD CLEAR, 0 while the clock is UNSET (R181). -/
def Calendar.clearedMinute (c : Calendar) : Nat :=
  match c.clock with
  | .running => c.m
  | .unset => 0

theorem Calendar.rebased_clearedMinute (c : Calendar) :
    c.rebased.clearedMinute = if decide (c.clock = .running) then 1440 + c.wall else 0 := by
  unfold Calendar.rebased
  by_cases hc : c.clock = .running
  · simp [hc, Calendar.clearedMinute]
  · cases h : c.clock with
    | unset => simp [h, Calendar.clearedMinute]
    | running => exact absurd h hc

theorem boardClear_eq (p : Port) (s : State) : boardClear p s =
    (done false (u24 s.emptied.cal.clearedMinute), raise .board .boardCleared 0 (portCode p) s.emptied) := by
  unfold boardClear State.emptied
  dsimp only
  generalize judgeHushAll _ = u
  rfl

/-- BOARD CLEARED joins every queue (R186). -/
theorem offerAll_boardCleared (ports : PerPort PortState) (q : PerPort PortQueue) {r : EventRecord} (h : r.kind = .boardCleared) :
    offerAll ports q r = pushAll q r := by
  unfold offerAll pushAll offer
  simp [accepts_always (.inr h)]

theorem settledJournal_nil (h : s.journalBox = []) : s.settledJournal = s.journal := by
  unfold State.settledJournal
  rw [h]
  rfl

/-- Settles O19: the board is bare once it is emptied, so HUSH and the hushed marks change nothing else. -/
theorem boardClearEmptiesTheDay : Obligations.BoardClearEmptiesTheDay := by
  unfold Obligations.BoardClearEmptiesTheDay
  intro t s ht
  dsimp only
  have settled := ht.settled
  have cal := heard_cal t 2 settled
  obtain ⟨ps, box, hps, hbox, emptied⟩ := State.emptied_eq (heard t 2 s)
  have body : boardClear t.port (heard t 2 s) = (done false (u24 (if decide (s.cal.clock = .running) then 1440 + s.cal.wall else 0)),
      raise .board .boardCleared 0 (portCode t.port) (heard t 2 s).emptied) := by
    rw [boardClear_eq, emptied, ← cal, ← Calendar.rebased_clearedMinute]
  refine ⟨_, request_ends ht 2 13 body, ?_⟩
  rw [emptied]
  refine ⟨?_, rfl, rfl, settledJournal_nil (heard_settled t 2 settled).2, rfl, ?_, ?_, ?_, fun k => ?_, ?_⟩
  · show (heard t 2 s).cal.rebased = _
    rw [cal]
    unfold Calendar.rebased
    by_cases hc : s.cal.clock = .running
    · simp [hc]
    · simp [hc]
  · show (heard t 2 s).carousels.map Carousel.cleared = _
    rw [heard_carousels t 2 settled]
    rfl
  · show (heard t 2 s).plays.map (fun _ => none) = _
    rw [heard_plays t 2 settled]
  · rw [heard_panels t 2 settled, List.map_map] at hps
    exact hps
  · have single : box = [] := (hbox (by rw [cal] at k ⊢; exact k)).trans (heard_settled t 2 settled).1
    rw [single]
    have ended := settle_one (s := raise .board .boardCleared 0 (portCode t.port)
      { emptyBoard (heard t 2 s) with cal := (heard t 2 s).cal.rebased, panels := ps, outbox := [] }) rfl (heard_settled t 2 settled).2
    refine (congrArg State.queues ended).trans ((offerAll_boardCleared _ _ rfl).trans ?_)
    show pushAll (heard t 2 s).queues
      { kind := .boardCleared, m := _, second := (heard t 2 s).cal.rebased.second, subject := _, number := _, detail := _ } = _
    have second : (heard t 2 s).cal.rebased.second = s.cal.second := by
      rw [cal]
      unfold Calendar.rebased
      split <;> rfl
    rw [second, heard_unsold 2 ht (by decide)]
    rfl
  · have quiet := heard_settled t 2 settled
    generalize heard t 2 s = h at quiet ⊢
    obtain ⟨ho, hj⟩ := quiet
    cases h
    dsimp only at ho hj
    subst ho hj
    rfl

end Sys2Proof.Machine
end

section
/-! PROOFS about the lifecycle of a showing (R38 to R44): what a transition, and what being judged, makes of the record. -/

namespace Sys2Proof.Machine

/-! ### A showing read after a change of one -/

theorem State.showing?_modShowing (id : Nat) {f : Showing → Showing} (hf : ∀ x, x.id = id → (f x).id = id) (s : State) (i : Nat) :
    (s.modShowing id f).showing? i = if i = id then (s.showing? id).map f else s.showing? i := by
  split
  next e => rw [e]; exact findKey_modKey_same Showing.id id f s.showings hf
  next e => exact findKey_modKey_other Showing.id id i f s.showings hf e

/-- Under one id a record stands, or none; the others stand as they were. -/
structure Recorded (id : Nat) (y : Option Showing) (s t : State) : Prop where
  here : t.showing? id = y
  others : ∀ i, i ≠ id → t.showing? i = s.showing? i

section
variable {id : Nat} {s t u : State} {x : Showing}

theorem Recorded.then {y z : Option Showing} (h : Recorded id y s t) (k : Recorded id z t u) : Recorded id z s u :=
  ⟨k.here, fun i hi => (k.others i hi).trans (h.others i hi)⟩

theorem State.showing?_congr (h : t.showings = s.showings) (i : Nat) : t.showing? i = s.showing? i :=
  congrArg (findKey Showing.id i) h

theorem Recorded.same {y : Option Showing} (h : Recorded id y s t) (k : u.showings = t.showings) : Recorded id y s u :=
  ⟨(State.showing?_congr k id).trans h.here, fun i hi => (State.showing?_congr k i).trans (h.others i hi)⟩

theorem Recorded.refl (h : s.showing? id = some x) : Recorded id (some x) s s := ⟨h, fun _ _ => rfl⟩

theorem modShowing_recorded (hx : s.showing? id = some x) {f : Showing → Showing} (hf : ∀ y, y.id = id → (f y).id = id) :
    Recorded id (some (f x)) s (s.modShowing id f) where
  here := by rw [State.showing?_modShowing id hf, if_pos rfl, hx]; rfl
  others i hi := by rw [State.showing?_modShowing id hf, if_neg hi]

/-! ### Transitions -/

/-- The record once a state is entered (R40, R93). -/
def Showing.entered (m : Nat) (st : ShowState) (x : Showing) : Showing :=
  { x with state := st, fast := ({ x with state := st } : Showing).nextFast m }

theorem enterState_recorded (st : ShowState) (hx : s.showing? id = some x) :
    Recorded id (some (x.entered s.cal.m st)) s (enterState id st s) := by
  have moved := modShowing_recorded (f := fun x => { x with state := st }) hx fun _ e => e
  have told : Recorded id _ s (raise (.showing id) .showingState id st.code (s.modShowing id fun x => { x with state := st })) :=
    moved.same rfl
  exact told.then (modShowing_recorded (f := fun y => { y with fast := y.nextFast s.cal.m }) told.here fun _ e => e)

/-- The record once a transition has been taken with its effects on the record (R38, R42, R43). -/
def State.taken (s : State) (id : Nat) (st : ShowState) (x : Showing) : Showing :=
  match st with
  | .closed => ({ x.entered s.cal.m .closed with held := x.held - s.heldBy id, pace := 0 } : Showing).inLine s.figure s.cal.m
  | .ended => ({ x with purge := some (purgeAt (x.endMinute + s.life.linger)) } : Showing).entered s.cal.m .ended
  | st => x.entered s.cal.m st

theorem releaseHolds_recorded (g : Source) (reason : Nat) (kind : JournalKind) (hx : s.showing? id = some x) :
    Recorded id (some (({ x with held := x.held - s.heldBy id, pace := 0 } : Showing).inLine s.figure s.cal.m)) s
      (releaseHolds g reason kind id s) := by
  obtain ⟨⟨y, hs, hy⟩, -⟩ := endHolds_seats g reason kind (s.holds.filter fun h => h.showing == id) (fun y => { y with pace := 0 }) hx
  have moved : Recorded id (some y) s (s.modShowing id fun _ => y) :=
    modShowing_recorded (f := fun _ => y) hx fun _ _ => by rw [hy]; exact (findKey_mem Showing.id hx).2
  subst hy
  exact moved.same hs

theorem transitionTo_recorded (st : ShowState) (hx : s.showing? id = some x) :
    Recorded id (some (s.taken id st x)) s (transitionTo id st s) := by
  unfold transitionTo
  cases st with
  | planned => exact enterState_recorded _ hx
  | onSale => exact enterState_recorded _ hx
  | seating => exact enterState_recorded _ hx
  | cancelled => exact enterState_recorded _ hx
  | started => exact (enterState_recorded _ hx).same (retireDelayed_seats _ id _).showings
  | closed =>
    have entered := enterState_recorded .closed hx
    exact entered.then (releaseHolds_recorded _ _ _ entered.here)
  | ended =>
    have purged := modShowing_recorded (f := fun x => { x with purge := some (purgeAt (x.endMinute + s.life.linger)) }) hx fun _ e => e
    exact (purged.then (enterState_recorded .ended purged.here)).same (retireNotices_seats _ _ _).showings

/-- A record freed is no more, and no other moves. -/
theorem freeShowing_recorded (hx : s.showing? id = some x) : Recorded id none s (freeShowing x s) := by
  have hid : x.id = id := (findKey_mem Showing.id hx).2
  have kept := (retireNotices_seats (.showing x.id) ((raise (.showing x.id) .showingFreed x.id x.state.code s).linkedNotices x.id)
    (raise (.showing x.id) .showingFreed x.id x.state.code s)).showings
  have erased : (freeShowing x s).showings = eraseKey Showing.id id s.showings := by
    rw [← hid]
    exact congrArg (eraseKey Showing.id x.id) kept
  constructor
  · unfold State.showing?
    rw [erased]
    exact findKey_eraseKey_same Showing.id id s.showings
  · intro i hi
    unfold State.showing?
    rw [erased]
    exact findKey_eraseKey_other Showing.id id i s.showings hi

/-! ### Where a judged record comes to rest -/

/-- The transitions that lie before a record, its freeing with them. -/
def ShowState.steps : ShowState → Nat
  | .planned => 6
  | .onSale => 5
  | .seating => 4
  | .started => 3
  | .closed => 2
  | .ended | .cancelled => 1

variable {life : LifeSettings} {m : Nat}

theorem not_of_ite_none {c : Prop} [Decidable c] {d : Due} (h : (if c then some d else none) = none) : ¬ c := fun k => by
  rw [if_pos k] at h
  cases h

/-- A record with no transition due is at rest. -/
theorem rest_of_due_none (h : x.due life m = none) :
    x.restAt life m = x.state ∧ x.purgeAtRest life m = x.purge ∧ ¬ x.FreedAt life m ∧ ¬ x.ClosesAt life m := by
  have rest : x.restAt life m = x.state := by
    unfold Showing.restAt
    cases e : x.state
    case planned => rw [due_planned e] at h; simp [not_of_ite_none h]
    case onSale => rw [due_onSale e] at h; simp [show ¬ x.start + x.delay ≤ m + life.lead from not_of_ite_none h]
    case seating => rw [due_seating e] at h; simp [show ¬ x.start + x.delay ≤ m from not_of_ite_none h]
    case started => rw [due_started e] at h; simp [show ¬ x.start + x.delay + life.late ≤ m from not_of_ite_none h]
    case closed => rw [due_closed e] at h; simp [show ¬ x.start + x.delay + x.runtime ≤ m from not_of_ite_none h]
    all_goals simp
  have purge : x.purgeAtRest life m = x.purge := by
    unfold Showing.purgeAtRest
    rw [rest, if_neg (fun k => k.1 k.2)]
  refine ⟨rest, purge, ?_, ?_⟩
  · rintro ⟨hs, d, hd, le⟩
    rw [rest] at hs
    rw [purge] at hd
    rw [due_gone hs, hd] at h
    simp [le] at h
  · rintro ⟨hs, hr⟩
    rw [rest] at hr
    rcases hr with hr | hr <;> rw [hr] at hs <;> simp at hs

/-- A record whose freeing is due is freed. -/
theorem freed_of_due_free (h : x.due life m = some .free) : x.FreedAt life m := by
  have gone : x.state = .ended ∨ x.state = .cancelled := by
    cases e : x.state
    case planned => rw [due_planned e] at h; split at h <;> cases h
    case onSale => rw [due_onSale e] at h; split at h <;> cases h
    case seating => rw [due_seating e] at h; split at h <;> cases h
    case started => rw [due_started e] at h; split at h <;> cases h
    case closed => rw [due_closed e] at h; split at h <;> cases h
    case ended => exact .inl rfl
    case cancelled => exact .inr rfl
  have rest : x.restAt life m = x.state := by
    unfold Showing.restAt
    rcases gone with e | e <;> simp [e]
  have purge : x.purgeAtRest life m = x.purge := by
    unfold Showing.purgeAtRest
    rw [rest, if_neg (fun k => k.1 k.2)]
  rw [due_gone gone] at h
  unfold Showing.FreedAt
  rw [rest, purge]
  refine ⟨gone, ?_⟩
  cases hp : x.purge with
  | none => rw [hp] at h; simp at h
  | some d => exact ⟨d, rfl, by rw [hp] at h; simpa using h⟩

/-- A transition that is due leads one row of R38's table on, and leaves where the record comes to rest. -/
theorem rest_of_due_enter {st : ShowState} (h : x.due life m = some (.enter st)) :
    st.steps < x.state.steps ∧ ({ x with state := st } : Showing).restAt life m = x.restAt life m ∧
      (st = .closed → x.state = .started) ∧ (st = .ended → x.state = .closed) ∧
      (st = .onSale ∨ st = .seating ∨ st = .started ∨ st = .closed ∨ st = .ended) := by
  cases e : x.state
  case planned =>
    rw [due_planned e] at h
    split at h <;> cases h
    exact ⟨by decide, by simp_all [Showing.restAt], by simp, by simp, by simp⟩
  case onSale =>
    rw [due_onSale e] at h
    split at h <;> cases h
    exact ⟨by decide, by simp_all [Showing.restAt, Showing.effective], by simp, by simp, by simp⟩
  case seating =>
    rw [due_seating e] at h
    split at h <;> cases h
    exact ⟨by decide, by simp_all [Showing.restAt, Showing.effective], by simp, by simp, by simp⟩
  case started =>
    rw [due_started e] at h
    split at h <;> cases h
    exact ⟨by decide, by simp_all [Showing.restAt, Showing.effective], by simp, by simp, by simp⟩
  case closed =>
    rw [due_closed e] at h
    split at h <;> cases h
    exact ⟨by decide, by simp_all [Showing.restAt, Showing.effective], by simp, by simp, by simp⟩
  all_goals
    rw [due_gone (by simp [e])] at h
    split at h <;> cases h

/-- What a transition that is due makes of the record. -/
structure State.Took (s : State) (id : Nat) (st : ShowState) (x y : Showing) : Prop where
  record : y = { x with
    state := st, purge := y.purge, held := y.held, pace := y.pace, band := y.band, fast := y.fast, oversold := y.oversold }
  purge : y.purge = if st = .ended then some (min 1048575 (x.start + x.delay + x.runtime + s.life.linger)) else x.purge
  fast : y.fast = y.nextFast s.cal.m
  calm : st ≠ .closed → y.held = x.held ∧ y.pace = x.pace ∧ y.band = x.band ∧ y.oversold = x.oversold
  closed : st = .closed → y.pace = 0 ∧ y.held = x.held - s.heldBy id

theorem State.taken_took (s : State) (id : Nat) (st : ShowState) (x : Showing) : s.Took id st x (s.taken id st x) := by
  cases st <;> exact ⟨rfl, rfl, rfl, by simp [State.taken, Showing.entered], by simp [State.taken, Showing.entered, Showing.inLine]⟩

/-- A record that differs in its figures alone comes to rest in the same state. -/
theorem restAt_congr {y : Showing} (hs : y.state = x.state) (h1 : y.start = x.start) (h2 : y.delay = x.delay)
    (h3 : y.runtime = x.runtime) (h4 : y.salesOpen = x.salesOpen) : y.restAt life m = x.restAt life m := by
  unfold Showing.restAt
  rw [hs, h1, h2, h3, h4]

/-- What a transition that is due leaves of the judging that it belongs to. -/
theorem State.Took.rest {st : ShowState} {y : Showing} (h : s.Took id st x y) (hdue : x.due s.life s.cal.m = some (.enter st)) :
    y.restAt s.life s.cal.m = x.restAt s.life s.cal.m ∧ y.purgeAtRest s.life s.cal.m = x.purgeAtRest s.life s.cal.m ∧
      (st = .closed → x.ClosesAt s.life s.cal.m ∧ ¬ y.ClosesAt s.life s.cal.m) ∧
      (st ≠ .closed → (y.ClosesAt s.life s.cal.m ↔ x.ClosesAt s.life s.cal.m)) := by
  obtain ⟨-, hrest, hclosed, hended, hst⟩ := rest_of_due_enter hdue
  have state : y.state = st := by rw [h.record]
  have rest : y.restAt s.life s.cal.m = x.restAt s.life s.cal.m := by
    rw [← hrest]
    exact restAt_congr state (by rw [h.record]) (by rw [h.record]) (by rw [h.record]) (by rw [h.record])
  have figures : y.start = x.start ∧ y.delay = x.delay ∧ y.runtime = x.runtime := by rw [h.record]; exact ⟨rfl, rfl, rfl⟩
  obtain ⟨hsteps, -⟩ := rest_of_due_enter hdue
  refine ⟨rest, ?_, fun hc => ?_, fun hc => ?_⟩
  · unfold Showing.purgeAtRest
    rw [rest, state, h.purge, figures.1, figures.2.1, figures.2.2]
    by_cases he : st = .ended
    · have ended : x.restAt s.life s.cal.m = .ended := by
        rw [← rest]
        unfold Showing.restAt
        simp [state, he]
      rw [if_neg (fun k => k.1 he), if_pos he, if_pos ⟨by rw [hended he]; decide, ended⟩]
    · have before : x.state ≠ .ended := fun e => by
        rw [e] at hsteps
        rcases hst with rfl | rfl | rfl | rfl | rfl <;> simp [ShowState.steps] at hsteps
      simp only [he, before, if_false, ne_eq, not_false_eq_true, true_and]
  · have from_closed : y.restAt s.life s.cal.m = .closed ∨ y.restAt s.life s.cal.m = .ended := by
      unfold Showing.restAt
      rw [state, hc]
      simp only [reduceCtorEq, false_and, if_false, true_and]
      split
      · exact .inr rfl
      · exact .inl rfl
    exact ⟨⟨.inr (.inr (.inr (hclosed hc))), rest ▸ from_closed⟩, fun k => by
      have := k.1
      rw [state, hc] at this
      simp at this⟩
  · unfold Showing.ClosesAt
    rw [rest, state]
    by_cases he : st = .ended
    · simp [he, hended he]
    · have before : x.state = .planned ∨ x.state = .onSale ∨ x.state = .seating ∨ x.state = .started := by
        cases e : x.state
        case planned | onSale | seating | started => simp
        all_goals
          rw [e] at hsteps
          rcases hst with rfl | rfl | rfl | rfl | rfl <;> simp [ShowState.steps] at hsteps he hc
      have after : st = .planned ∨ st = .onSale ∨ st = .seating ∨ st = .started := by
        rcases hst with rfl | rfl | rfl | rfl | rfl <;> simp at hc he ⊢
      simp only [before, after, true_and]

/-- What being judged makes of a record that is not freed (R38, R42, R43): at rest, its seats and pace moved by CLOSED alone, and its
fast flag recomputed where a transition is taken. -/
structure State.Judged (s : State) (id : Nat) (x y : Showing) : Prop where
  record : y = { x with
    state := x.restAt s.life s.cal.m, purge := x.purgeAtRest s.life s.cal.m, held := y.held, pace := y.pace, band := y.band,
    fast := y.fast, oversold := y.oversold }
  rest : y.due s.life s.cal.m = none
  fast : y = x ∨ y.fast = y.nextFast s.cal.m
  calm : ¬ x.ClosesAt s.life s.cal.m → y.held = x.held ∧ y.pace = x.pace ∧ y.band = x.band ∧ y.oversold = x.oversold
  closed : x.ClosesAt s.life s.cal.m → y.pace = 0 ∧ y.held = x.held - s.heldBy id

/-- Only CLOSED ends holds (R42). -/
theorem transitionTo_holds (id : Nat) {st : ShowState} (h : st ≠ .closed) (s : State) : (transitionTo id st s).holds = s.holds := by
  unfold transitionTo
  cases st with
  | closed => exact absurd rfl h
  | started => exact (retireDelayed_seats _ _ _).holds
  | ended => exact (retireNotices_seats _ _ _).holds
  | planned => rfl
  | onSale => rfl
  | seating => rfl
  | cancelled => rfl

theorem heldBy_congr_holds (h : t.holds = s.holds) (i : Nat) : t.heldBy i = s.heldBy i := by
  unfold State.heldBy
  rw [h]

/-- The judging of a record, one step of it. -/
theorem judgeShowing_step (k : Nat) (hx : s.showing? id = some x) : judgeShowing (k + 1) id s =
    match x.due s.life s.cal.m with
    | none => s
    | some (.enter st) => judgeShowing k id (transitionTo id st s)
    | some .free => freeShowing x s := by
  show (match s.showing? id with | none => s | some x => _) = _
  rw [hx] <;> rfl

/-- A record judged is freed, or comes to rest; no other record moves (R38, R39, R44). -/
theorem judgeShowing_judged (k : Nat) (hk : x.state.steps ≤ k) (hx : s.showing? id = some x) :
    (x.FreedAt s.life s.cal.m → Recorded id none s (judgeShowing k id s)) ∧
      (¬ x.FreedAt s.life s.cal.m → ∃ y, Recorded id (some y) s (judgeShowing k id s) ∧ s.Judged id x y) := by
  induction k generalizing s x with
  | zero => exact absurd hk (by cases x.state <;> decide)
  | succ k ih =>
    rw [judgeShowing_step k hx]
    cases hdue : x.due s.life s.cal.m with
    | none =>
      obtain ⟨rest, purge, notFreed, open'⟩ := rest_of_due_none hdue
      refine ⟨fun f => absurd f notFreed, fun _ => ⟨x, .refl hx, ?_, hdue, .inl rfl, fun _ => ⟨rfl, rfl, rfl, rfl⟩, fun c => absurd c open'⟩⟩
      rw [rest, purge]
    | some d =>
      cases d with
      | free => exact ⟨fun _ => freeShowing_recorded hx, fun f => absurd (freed_of_due_free hdue) f⟩
      | enter st =>
        have took := s.taken_took id st x
        have recorded := transitionTo_recorded st hx
        generalize hy : s.taken id st x = y at took recorded
        obtain ⟨rest, purge, closes, open'⟩ := took.rest hdue
        have frame := (transitionTo_work id st s).frame
        have state : y.state = st := by rw [took.record]
        have next := ih (s := transitionTo id st s) (x := y) (by have := (rest_of_due_enter hdue).1; rw [state]; omega) recorded.here
        rw [frame.life, frame.cal] at next
        have freed : y.FreedAt s.life s.cal.m ↔ x.FreedAt s.life s.cal.m := by
          unfold Showing.FreedAt
          rw [rest, purge]
        refine ⟨fun f => recorded.then (next.1 (freed.2 f)), fun f => ?_⟩
        obtain ⟨z, hz, judged⟩ := next.2 fun k => f (freed.1 k)
        obtain ⟨record, due, fast, calm, closed⟩ := judged
        simp only [frame.life, frame.cal] at record due fast calm closed
        refine ⟨z, recorded.then hz, ?_, due, ?_, fun c => ?_, fun c => ?_⟩
        · rw [record, rest, purge, took.record]
        · rcases fast with rfl | fast
          · exact .inr took.fast
          · exact .inr fast
        · have hst : st ≠ .closed := fun e => c (closes e).1
          obtain ⟨h1, h2, h3, h4⟩ := calm fun k => c ((open' hst).1 k)
          obtain ⟨k1, k2, k3, k4⟩ := took.calm hst
          exact ⟨h1.trans k1, h2.trans k2, h3.trans k3, h4.trans k4⟩
        · by_cases hst : st = .closed
          · obtain ⟨h1, h2, -, -⟩ := calm (closes hst).2
            obtain ⟨k1, k2⟩ := took.closed hst
            exact ⟨h2.trans k1, h1.trans k2⟩
          · obtain ⟨h1, h2⟩ := closed ((open' hst).2 c)
            rw [heldBy_congr_holds (transitionTo_holds id hst s), (took.calm hst).1] at h2
            exact ⟨h1, h2⟩

/-- Steps enough for every record. -/
theorem steps_le_lifeSteps (st : ShowState) : st.steps ≤ lifeSteps := by cases st <;> decide

end

/-- Settles O27: six steps take any record to rest, or to its freeing. -/
theorem judgedShowingIsAtRest : Obligations.JudgedShowingIsAtRest := by
  unfold Obligations.JudgedShowingIsAtRest
  intro id y s hy
  cases hx : s.showing? id with
  | none =>
    have still : judgeShowing lifeSteps id s = s := by
      show judgeShowing (5 + 1) id s = s
      unfold judgeShowing
      rw [hx]
    rw [still, hx] at hy
    cases hy
  | some x =>
    obtain ⟨freed, live⟩ := judgeShowing_judged lifeSteps (steps_le_lifeSteps x.state) hx
    by_cases f : x.FreedAt s.life s.cal.m
    · rw [(freed f).here] at hy
      cases hy
    · obtain ⟨z, hz, judged⟩ := live f
      rw [hz.here] at hy
      obtain rfl := Option.some.inj hy
      exact judged.rest

end Sys2Proof.Machine
end

section
/-! PROOFS about the DELAYED notice of a showing (R110 to R112): the free id it takes, and what is created, updated or retired. -/

namespace Sys2Proof.Machine

variable {s t : State}

/-! ### Reading a notice -/

theorem State.notice?_congr (h : t.notices.table = s.notices.table) (i : Nat) : t.notice? i = s.notice? i :=
  congrArg (findKey Notice.id i) h

theorem State.delayedNotice_congr (h : t.notices = s.notices) (id : Nat) : t.delayedNotice id = s.delayedNotice id := by
  unfold State.delayedNotice
  rw [h]

theorem State.notice?_eq_none {i : Nat} : s.notice? i = none ↔ ∀ n ∈ s.notices.table, n.id ≠ i := findKey_eq_none Notice.id

theorem State.delayedNotice_mem {id : Nat} {n : Notice} (h : s.delayedNotice id = some n) : n ∈ s.notices.table :=
  List.mem_of_find?_eq_some h

/-- Live notices have ids of their own. -/
theorem State.Listed.notice?_id (h : s.Listed) {n : Notice} (hn : n ∈ s.notices.table) : s.notice? n.id = some n :=
  findKey_of_mem Notice.id h.table hn

/-! ### The free id -/

/-- The ids from 255 downward (R111). -/
theorem idsDownward_sorted : ((List.range 255).reverse.map fun i => i + 1).Pairwise (· > ·) := by
  rw [List.pairwise_map, List.pairwise_reverse]
  exact List.pairwise_lt_range.imp fun h => Nat.succ_lt_succ h

theorem mem_idsDownward {i : Nat} : i ∈ ((List.range 255).reverse.map fun i => i + 1) ↔ 1 ≤ i ∧ i ≤ 255 := by
  simp only [List.mem_map, List.mem_reverse, List.mem_range]
  constructor
  · rintro ⟨a, ha, rfl⟩
    omega
  · rintro ⟨h1, h2⟩
    exact ⟨i - 1, by omega, by omega⟩

/-- The free id is the highest that is not live (R111). -/
theorem freeNoticeId_highest {i : Nat} (h : s.freeNoticeId = some i) :
    1 ≤ i ∧ i ≤ 255 ∧ s.notice? i = none ∧ ∀ j, i < j → j ≤ 255 → s.notice? j ≠ none := by
  have new := freeNoticeId_new h
  unfold State.freeNoticeId at h
  obtain ⟨hi, as, bs, split, live⟩ := List.find?_eq_some_iff_append.1 h
  have range := mem_idsDownward.1 (List.mem_of_find?_eq_some h)
  refine ⟨range.1, range.2, State.notice?_eq_none.2 new, fun j lt le free => ?_⟩
  have sorted := idsDownward_sorted
  rw [split, List.pairwise_append] at sorted
  have hj : j ∈ as ++ i :: bs := split ▸ mem_idsDownward.2 ⟨by omega, le⟩
  rcases List.mem_append.1 hj with hj | hj
  · have := live j hj
    rw [Bool.not_not, hasKey, List.any_eq_true] at this
    obtain ⟨n, hn, e⟩ := this
    exact State.notice?_eq_none.1 free n hn (by simpa using e)
  · rcases List.mem_cons.1 hj with rfl | hj
    · exact lt.false
    · have := (List.pairwise_cons.1 sorted.2.1).1 j hj
      omega

theorem freeNoticeId_none : s.freeNoticeId = none ↔ ∀ i, 1 ≤ i → i ≤ 255 → ∃ n ∈ s.notices.table, n.id = i := by
  unfold State.freeNoticeId
  rw [List.find?_eq_none]
  constructor
  · intro h i h1 h2
    have := h i (mem_idsDownward.2 ⟨h1, h2⟩)
    rw [Bool.not_eq_true, Bool.not_eq_false', hasKey, List.any_eq_true] at this
    obtain ⟨n, hn, e⟩ := this
    exact ⟨n, hn, by simpa using e⟩
  · intro h i hi
    obtain ⟨h1, h2⟩ := mem_idsDownward.1 hi
    obtain ⟨n, hn, e⟩ := h i h1 h2
    rw [Bool.not_eq_true, Bool.not_eq_false', hasKey, List.any_eq_true]
    exact ⟨n, hn, by simpa using e⟩

/-! ### What becomes of the DELAYED notice -/

/-- With a delay above 0 the DELAYED notice of a showing is updated or created, or the no-notice mark is given (R111, R112). -/
structure State.DelayNoticed (s t : State) (id delay : Nat) (noNotice : Bool) : Prop where
  mark : noNotice = true ↔ s.delayedNotice id = none ∧
    (32 ≤ s.notices.table.length ∨ ∀ i, 1 ≤ i → i ≤ 255 → ∃ n ∈ s.notices.table, n.id = i)
  kept : noNotice = true → t.notices = s.notices
  updated : s.Noticed → ∀ n, s.delayedNotice id = some n →
    (∀ i, t.notice? i = if i = n.id then some { n with content := .system 1 delay } else s.notice? i) ∧
      t.notices.activation = s.notices.activation
  created : s.Noticed → s.delayedNotice id = none → noNotice = false → ∃ i, 1 ≤ i ∧ i ≤ 255 ∧ s.notice? i = none ∧
    (∀ j, i < j → j ≤ 255 → s.notice? j ≠ none) ∧
    (∀ j, j ≠ i → t.notice? j = s.notice? j) ∧
    t.notice? i = some
      { id := i, cls := .showing, content := .system 1 delay, scope := 0, link := some id, activation := none,
        expiry := none, flash := none, state := .active, instant := some { m := s.cal.m, second := s.cal.second },
        position := none, system := true } ∧
    t.notices.activation = s.notices.activation ++ [i]

theorem noticeForDelay_delayNoticed (id : Nat) {delay : Nat} (hd : delay ≠ 0) (s : State) :
    s.DelayNoticed (noticeForDelay id delay s).1 id delay (noticeForDelay id delay s).2 := by
  unfold noticeForDelay
  rw [if_neg hd]
  cases old : s.delayedNotice id with
  | some n =>
    refine ⟨by simp [old], by simp, fun hs m hm => ?_, fun _ h => by simp [old] at h⟩
    rw [old] at hm
    obtain rfl := Option.some.inj hm
    refine ⟨fun i => ?_, rfl⟩
    by_cases e : i = n.id
    · rw [if_pos e, e]
      refine (findKey_modKey_same Notice.id n.id (fun x => { x with content := .system 1 delay }) _ fun _ e => e).trans ?_
      rw [show findKey Notice.id n.id s.notices.table = some n from hs.listed.notice?_id (State.delayedNotice_mem old)]
      rfl
    · rw [if_neg e]
      exact findKey_modKey_other Notice.id n.id i (fun x => { x with content := .system 1 delay }) _ (fun _ e => e) e
  | none =>
    dsimp only
    unfold createDelayed
    cases free : s.freeNoticeId with
    | none => exact ⟨by simp only [old, true_and, true_iff]; exact .inr (freeNoticeId_none.1 free), fun _ => rfl, by simp [old], by simp⟩
    | some i =>
      obtain ⟨h1, h255, hnew, highest⟩ := freeNoticeId_highest free
      have some_free : ¬ ∀ i, 1 ≤ i → i ≤ 255 → ∃ n ∈ s.notices.table, n.id = i := fun k => by
        rw [freeNoticeId_none.2 k] at free
        cases free
      dsimp only
      split
      next room =>
        have room : s.notices.table.length < 32 := room
        refine ⟨by simp only [Bool.false_eq_true, old, true_and, some_free, or_false, false_iff]; omega, by simp, by simp [old],
          fun _ _ _ => ⟨i, h1, h255, hnew, highest, fun j hj => ?_, ?_, rfl⟩⟩
        · exact findKey_insertKey_other Notice.id (delayedRecord s i id delay) s.notices.table j hj
        · exact findKey_insertKey_same Notice.id (delayedRecord s i id delay) s.notices.table (freeNoticeId_new free)
      next full =>
        have full : ¬ s.notices.table.length < 32 := full
        exact ⟨by simp only [old, true_and, true_iff]; left; omega, fun _ => rfl, by simp [old], by simp⟩

/-- The DELAYED notice retired, where one is live (R110). -/
theorem retireDelayed_read (g : Source) (id : Nat) (s : State) :
    (∀ i, (retireDelayed g id s).notice? i = if (s.delayedNotice id).map Notice.id = some i then none else s.notice? i) ∧
      (retireDelayed g id s).notices.activation =
        s.notices.activation.filter fun i => decide ((s.delayedNotice id).map Notice.id ≠ some i) := by
  unfold retireDelayed
  cases s.delayedNotice id with
  | none => exact ⟨fun i => by simp, by simp⟩
  | some n =>
    have told := raises_notices (fun _ => g) .noticeState (fun id => id) noticeRetired (anyOrder s.choice Source.notice [n.id])
      { s with choice := s.choice + 1 }
    have notices : (retireNotices g [n.id] s).notices.table = s.notices.table.filter (fun m => !List.contains [n.id] m.id) ∧
        (retireNotices g [n.id] s).notices.activation = s.notices.activation.filter fun i => !List.contains [n.id] i := by
      unfold retireNotices
      rw [if_neg (by simp)]
      dsimp only
      rw [judgeTakeover_notices]
      unfold freeNotices raiseNotices
      dsimp only
      rw [show [n.id].length = 1 from rfl, told]
      exact ⟨rfl, rfl⟩
    refine ⟨fun i => ?_, ?_⟩
    · have erased : (retireNotices g [n.id] s).notices.table = eraseKey Notice.id n.id s.notices.table := by
        rw [notices.1]
        unfold eraseKey
        exact List.filter_congr fun m _ => by by_cases e : m.id = n.id <;> simp [bne, e]
      show findKey Notice.id i (retireNotices g [n.id] s).notices.table = _
      rw [erased, Option.map_some]
      by_cases e : i = n.id
      · rw [if_pos (by rw [e]), e]
        exact findKey_eraseKey_same Notice.id _ _
      · rw [if_neg (fun k => e (Option.some.inj k).symm)]
        exact findKey_eraseKey_other Notice.id _ _ _ e
    · show (retireNotices g [n.id] s).notices.activation = _
      rw [notices.2]
      exact List.filter_congr fun i _ => by simp [eq_comm]

end Sys2Proof.Machine
end

section
/-! PROOFS about the requests that act on a showing: PUBLISH, MOVE, DELAY and CANCEL (R45 to R54). -/

namespace Sys2Proof.Machine

variable {s t u : State}

/-! ### What an early transition and a seat change touch -/

/-- The showings and the records raised have changed, and nothing else. -/
def OnlyShowings (s t : State) : Prop := ∃ xs ob, t = { s with showings := xs, outbox := ob }

theorem OnlyShowings.refl (s : State) : OnlyShowings s s := ⟨_, _, rfl⟩

theorem OnlyShowings.trans (h : OnlyShowings s t) (k : OnlyShowings t u) : OnlyShowings s u := by
  obtain ⟨_, _, rfl⟩ := h
  obtain ⟨_, _, rfl⟩ := k
  exact ⟨_, _, rfl⟩

theorem OnlyShowings.raise (g : Source) (k : EventKind) (n d : Nat) (s : State) : OnlyShowings s (raise g k n d s) := ⟨_, _, rfl⟩

theorem OnlyShowings.modShowing (id : Nat) (f : Showing → Showing) (s : State) : OnlyShowings s (s.modShowing id f) := ⟨_, _, rfl⟩

theorem recomputeFast_only (id : Nat) (s : State) : OnlyShowings s (recomputeFast id s) := ⟨_, _, rfl⟩

theorem changeSeats_only (g : Source) (id : Nat) (f : Showing → Showing) (s : State) : OnlyShowings s (changeSeats g id f s) := by
  unfold changeSeats
  split
  · exact .refl s
  · dsimp only
    split <;> split <;> exact ⟨_, _, rfl⟩

theorem enterState_only (id : Nat) (st : ShowState) (s : State) : OnlyShowings s (enterState id st s) := ⟨_, _, rfl⟩

theorem changeSeats_recorded (g : Source) {id : Nat} {f : Showing → Showing} {x : Showing} (hf : (f x).id = id)
    (hx : s.showing? id = some x) : Recorded id (some ((f x).inLine s.figure s.cal.m)) s (changeSeats g id f s) := by
  have moved := modShowing_recorded (f := fun _ => (f x).inLine s.figure s.cal.m) hx fun _ _ => hf
  exact moved.same (changeSeats_seats g f hx).1

/-! ### Judging before the effective start -/

/-- The states before the effective start. -/
def ShowState.early : ShowState → Bool
  | .planned | .onSale | .seating => true
  | .started | .closed | .ended | .cancelled => false

/-- A record judged before its effective start raises SHOWING STATE records and nothing else (R38, R41). -/
theorem judgeShowing_early (k : Nat) {id : Nat} {x : Showing} (hx : s.showing? id = some x) (hst : x.state.early = true)
    (ahead : s.cal.m < x.effective) : OnlyShowings s (judgeShowing k id s) := by
  induction k generalizing s x with
  | zero => exact .refl s
  | succ k ih =>
    rw [judgeShowing_step k hx]
    cases hdue : x.due s.life s.cal.m with
    | none => exact .refl s
    | some d =>
      have next : d = .enter .onSale ∨ d = .enter .seating := by
        cases e : x.state <;> rw [e] at hst <;> try cases hst
        · rw [due_planned e] at hdue
          split at hdue <;> cases hdue
          exact .inl rfl
        · rw [due_onSale e] at hdue
          split at hdue <;> cases hdue
          exact .inr rfl
        · rw [due_seating e, if_neg (by omega)] at hdue
          cases hdue
      have entered : ∀ st : ShowState, st.early = true →
          OnlyShowings s (judgeShowing k id (enterState id st s)) := fun st hst =>
        (enterState_only id st s).trans (ih (enterState_recorded st hx).here hst ahead)
      rcases next with rfl | rfl
      · exact entered .onSale rfl
      · exact entered .seating rfl

/-- Where a record judged before its effective start comes to rest (R38). -/
theorem restAt_early {life : LifeSettings} {m : Nat} {x : Showing} (hst : x.state.early = true) (ahead : m < x.effective) :
    x.restAt life m =
      if x.state = .planned ∧ x.salesOpen.elim false (fun o => decide (m < o)) = true then .planned
      else if x.state = .seating ∨ x.effective ≤ m + life.lead then .seating else .onSale := by
  have not_started : ¬ x.start + x.delay ≤ m := Nat.not_le.2 ahead
  unfold Showing.restAt Showing.effective
  cases e : x.state <;> rw [e] at hst <;> try cases hst
  · cases x.salesOpen with
    | none => by_cases near : x.start + x.delay ≤ m + life.lead <;> simp [near, not_started]
    | some o =>
      by_cases open' : o ≤ m
      · by_cases near : x.start + x.delay ≤ m + life.lead <;> simp [near, not_started, open', Nat.not_lt.2 open']
      · simp [open', Nat.not_le.1 open']
  · by_cases near : x.start + x.delay ≤ m + life.lead <;> simp [near, not_started]
  · simp [not_started]

/-- What being judged before its effective start makes of a record: its state and its fast flag alone change. -/
theorem State.Judged.early {id : Nat} {x y : Showing} (h : s.Judged id x y) (hst : x.state.early = true)
    (ahead : s.cal.m < x.effective) : y = { x with state := x.restAt s.life s.cal.m, fast := y.fast } := by
  have rest := restAt_early (life := s.life) hst ahead
  have not_gone : x.restAt s.life s.cal.m ≠ .closed ∧ x.restAt s.life s.cal.m ≠ .ended := by
    rw [rest]
    constructor <;> split <;> (try split) <;> simp
  obtain ⟨held, pace, band, oversold⟩ := h.calm fun c => c.2.elim not_gone.1 not_gone.2
  have purge : x.purgeAtRest s.life s.cal.m = x.purge := by
    unfold Showing.purgeAtRest
    rw [if_neg fun k => not_gone.2 k.2]
  have record := h.record
  rw [held, pace, band, oversold, purge] at record
  exact record

/-- A record is not freed before its effective start. -/
theorem not_freed_early {life : LifeSettings} {m : Nat} {x : Showing} (hst : x.state.early = true) (ahead : m < x.effective) :
    ¬ x.FreedAt life m := fun ⟨k, _⟩ => by
  rw [restAt_early hst ahead] at k
  split at k
  · simp at k
  · split at k <;> simp at k

/-! ### Settling beside a frame -/

/-- The end of an arrival beside a state at rest. -/
theorem settle_beside (h : s.Settled) (u : State) : ∃ j q c,
    settle u = { u with journal := j, queues := q, choice := c, outbox := s.outbox, journalBox := s.journalBox } ∧
      (u.journalBox = [] → j = u.journal) := by
  rw [h.1, h.2]
  exact ⟨_, _, _, rfl, settledJournal_nil⟩

/-! ### PUBLISH -/

theorem publishRefusal_none_ahead {f : PublishFields} (h : s.publishRefusal f = none) :
    0 ≤ boardMinute s.cal.d0 f.start ∧ (s.cal.m : Int) < boardMinute s.cal.d0 f.start + publishDelay f := by
  unfold State.publishRefusal at h
  dsimp only at h
  iterate 5 (split at h; · cases h)
  split at h
  · cases h
  next ahead =>
    simp only [startPast, decide_eq_true_eq, not_or, Int.not_lt, Int.not_le] at ahead
    exact ahead

theorem noticeForDelay_only (id : Nat) {delay : Nat} (hd : delay ≠ 0) (s : State) :
    ∃ n ob, (noticeForDelay id delay s).1 = { s with notices := n, outbox := ob } := by
  unfold noticeForDelay createDelayed
  rw [if_neg hd]
  split
  · exact ⟨_, _, rfl⟩
  · split
    · split <;> exact ⟨_, _, rfl⟩
    · exact ⟨_, _, rfl⟩

theorem State.DelayNoticed.congr {a b : State} {id delay : Nat} {noNotice : Bool} (h : s.DelayNoticed t id delay noNotice)
    (ha : a.notices = s.notices) (hcal : a.cal = s.cal) (hb : b.notices = t.notices) : a.DelayNoticed b id delay noNotice where
  mark := by rw [State.delayedNotice_congr ha, ha]; exact h.mark
  kept := fun k => by rw [hb, ha]; exact h.kept k
  updated := fun hs n hn => by
    rw [State.delayedNotice_congr ha] at hn
    obtain ⟨read, activation⟩ := h.updated (hs.same ha.symm) n hn
    exact ⟨fun i => by rw [State.notice?_congr (s := t) (t := b) (by rw [hb]), read i, State.notice?_congr (s := s) (t := a) (by rw [ha])],
      by rw [hb, activation, ha]⟩
  created := fun hs hn hb' => by
    have back : ∀ i, a.notice? i = s.notice? i := State.notice?_congr (by rw [ha])
    have front : ∀ i, b.notice? i = t.notice? i := State.notice?_congr (by rw [hb])
    rw [State.delayedNotice_congr ha] at hn
    simp only [back, front, hcal, ha, hb]
    exact h.created (hs.same ha.symm) hn hb'

/-- The DELAYED notice of a new showing, where it has a delay (R49). -/
theorem publishNotice_done (id delay : Nat) (s : State) : ∃ u b,
    (if delay = 0 then (s, false) else noticeForDelay id delay s) = (u, b) ∧ (∃ n ob, u = { s with notices := n, outbox := ob }) ∧
      (delay = 0 → b = false ∧ u.notices = s.notices) ∧ (delay ≠ 0 → s.DelayNoticed u id delay b) := by
  by_cases hd : delay = 0
  · exact ⟨s, false, if_pos hd, ⟨_, _, rfl⟩, fun _ => ⟨rfl, rfl⟩, fun k => absurd hd k⟩
  · exact ⟨_, _, if_neg hd, noticeForDelay_only id hd s, fun k => absurd k hd, fun _ => noticeForDelay_delayNoticed id hd s⟩

/-- PUBLISH carried out (R49). -/
theorem publish_done {f : PublishFields} (ok : s.publishRefusal f = none) : ∃ v y noNotice,
    publish f s = (done (publishClamped f) (u16 y.id ++ u8 y.state.code ++ u24 y.start ++ u24 y.effective ++ u16 y.cap
      ++ u16 y.runtime ++ mark noNotice), v) ∧
    Recorded f.id.toNat (some y) s v ∧
    y = { (s.publishedShowing f).inLine s.figure s.cal.m with
      state := ((s.publishedShowing f).inLine s.figure s.cal.m).restAt s.life s.cal.m, fast := y.fast } ∧
    (y = (s.publishedShowing f).inLine s.figure s.cal.m ∨ y.fast = y.nextFast s.cal.m) ∧
    (∃ xs n ob, v = { s with showings := xs, notices := n, outbox := ob }) ∧
    (publishDelay f = 0 → noNotice = false ∧ v.notices = s.notices) ∧
    (publishDelay f ≠ 0 → s.DelayNoticed v f.id.toNat (publishDelay f) noNotice) := by
  have new := publishRefusal_none_new ok
  obtain ⟨start, ahead⟩ := publishRefusal_none_ahead ok
  generalize hx : s.publishedShowing f = x
  have id : x.id = f.id.toNat := by rw [← hx]; rfl
  have delay : x.delay = publishDelay f := by rw [← hx]; rfl
  have early : x.state.early = true := by
    rw [← hx]
    unfold State.publishedShowing
    dsimp only
    split <;> rfl
  have later : s.cal.m < x.effective := by
    have : x.effective = (boardMinute s.cal.d0 f.start).toNat + publishDelay f := by rw [← hx]; rfl
    omega
  have joined : Recorded f.id.toNat (some x) s { s with showings := insertKey Showing.id x s.showings } := by
    rw [← id] at new ⊢
    exact ⟨findKey_insertKey_same Showing.id x s.showings new, fun i hi => findKey_insertKey_other Showing.id x s.showings i hi⟩
  let w := raise (.showing x.id) .showingState x.id x.state.code
    (changeSeats (.seats x.id) x.id (fun y => y) { s with showings := insertKey Showing.id x s.showings })
  have drawn : Recorded f.id.toNat (some (x.inLine s.figure s.cal.m)) s w := by
    rw [← id] at joined ⊢
    exact joined.then ((changeSeats_recorded (.seats x.id) (f := fun y => y) rfl joined.here).same rfl)
  have only : OnlyShowings s w :=
    OnlyShowings.trans ⟨_, _, rfl⟩ ((changeSeats_only _ _ _ { s with showings := insertKey Showing.id x s.showings }).trans ⟨_, _, rfl⟩)
  obtain ⟨xs, ob, hw⟩ := only
  obtain ⟨u, b, noticed, ⟨n, ob', hu⟩, undelayed, delayed⟩ := publishNotice_done x.id x.delay w
  have standing : Recorded f.id.toNat (some (x.inLine s.figure s.cal.m)) s u := drawn.same (by rw [hu])
  have cal : u.cal = s.cal := by rw [hu, hw]
  have life : u.life = s.life := by rw [hu, hw]
  obtain ⟨-, live⟩ := judgeShowing_judged lifeSteps (steps_le_lifeSteps (x.inLine s.figure s.cal.m).state) standing.here
  obtain ⟨y, recorded, judged⟩ := live (not_freed_early early (by rw [cal]; exact later))
  have moved := judged.early early (by rw [cal]; exact later)
  rw [cal, life] at moved
  have fast := judged.fast
  rw [cal] at fast
  obtain ⟨xs', ob'', hv⟩ := judgeShowing_early lifeSteps standing.here early (by rw [cal]; exact later)
  have notices : (judgeShowing lifeSteps f.id.toNat u).notices = u.notices := by rw [hv]
  refine ⟨judgeShowing lifeSteps f.id.toNat u, y, b, ?_, standing.then recorded, moved, fast,
    ⟨xs', n, ob'', by rw [hv, hu, hw]⟩, fun k => ?_, fun k => ?_⟩
  · unfold publish
    rw [ok]
    dsimp only
    rw [hx, noticed, id]
    dsimp only
    unfold State.fromShowing
    rw [recorded.here]
  · obtain ⟨hb, hn⟩ := undelayed (delay.trans k)
    exact ⟨hb, by rw [notices, hn, hw]⟩
  · rw [← delay, ← id] at *
    exact (delayed k).congr (by rw [hw]) (by rw [hw]) notices

theorem ifPresent_eq_elim {α : Type} (test : α → Bool) (o : Option α) : ifPresent test o = o.elim false test := by cases o <;> rfl

/-- A record without pace is not fast (R92). -/
theorem nextFast_of_pace {m : Nat} {x : Showing} (h : x.pace < 16) : x.nextFast m = false := by
  unfold Showing.nextFast
  split <;> simp [Nat.not_le.2 h]

/-- The record of a PUBLISH with its figures computed (R49). -/
theorem publishedShowing_drawn (s : State) (f : PublishFields) : (s.publishedShowing f).inLine s.figure s.cal.m =
    let opens := f.salesOpen.map fun o => (s.cal.d0 + 1440 * (o.day.toNat : Int) + (o.minute.toNat : Int)).toNat
    let cap := f.capacity.elim (s.auditorium f.auditorium.toNat).capacity fun c => min 1500 c.toNat
    { id := f.id.toNat, auditorium := f.auditorium.toNat, feature := f.feature.toNat, format := f.format.toNat,
      start := (s.cal.d0 + 1440 * (f.start.day.toNat : Int) + (f.start.minute.toNat : Int)).toNat,
      runtime := publishRuntime s f, delay := f.delay.elim 0 fun d => min 180 d.toNat, salesOpen := opens, cap, sold := 0, held := 0,
      tally := 0, pace := 0, band := moveBand (risingTarget s.figure cap 0 0) (fallingTarget s.figure cap 0 0) .opn, fast := false,
      oversold := false, state := if opens.elim false fun o => decide (s.cal.m < o) then .planned else .onSale, purge := none } := by
  have cap : publishCapacity s f = f.capacity.elim (s.auditorium f.auditorium.toNat).capacity fun c => min 1500 c.toNat := by
    unfold publishCapacity
    cases f.capacity with
    | none => rfl
    | some c => exact Nat.max_eq_right (Nat.zero_le _)
  have delay : publishDelay f = f.delay.elim 0 fun d => min 180 d.toNat := by
    unfold publishDelay
    cases f.delay with
    | none => rfl
    | some d => exact Nat.max_eq_right (Nat.zero_le _)
  unfold Showing.inLine
  dsimp only
  rw [nextFast_of_pace (by exact (by decide : (0 : Nat) < 16))]
  unfold State.publishedShowing Showing.nextBand boardMinute
  simp [cap, delay, ifPresent_eq_elim]

theorem heard_publishRefusal (t : Txn) (n : Nat) (h : s.Settled) (f : PublishFields) :
    (heard t n s).publishRefusal f = s.publishRefusal f := by
  rw [heard_eq t n h]
  rfl

theorem heard_publishedShowing (t : Txn) (n : Nat) (h : s.Settled) (f : PublishFields) :
    (heard t n s).publishedShowing f = s.publishedShowing f := by
  rw [heard_eq t n h]
  rfl

/-- Settles O22: the record is created, drawn and judged before its effective start, so that its state is the only thing judged. -/
theorem publishCreatesTheShowing : Obligations.PublishCreatesTheShowing := by
  unfold Obligations.PublishCreatesTheShowing
  intro t f s ht ok
  dsimp only
  have settled := ht.settled
  generalize hn : (Wire.publishBytes f).length + 2 = n
  obtain ⟨v, y, b, body, recorded, moved, fast, ⟨xs, notices, ob, frame⟩, undelayed, delayed⟩ :=
    publish_done (s := heard t n s) (f := f) (by rw [heard_publishRefusal t n settled]; exact ok)
  rw [heard_publishedShowing t n settled, heard_figure t n settled, heard_cal t n settled, heard_life t n settled] at moved
  rw [heard_publishedShowing t n settled, heard_figure t n settled, heard_cal t n settled] at fast
  obtain ⟨start, ahead⟩ := publishRefusal_none_ahead ok
  obtain ⟨j, q, c, ended, hj⟩ := settle_beside (heard_settled t n settled) v
  have drawn := publishedShowing_drawn s f
  dsimp only at drawn
  have journal : j = (heard t n s).journal := by
    rw [hj (by rw [frame]; exact (heard_settled t n settled).2), frame]
  rw [drawn] at moved fast
  have rest := restAt_early (life := s.life) (m := s.cal.m) (x := (s.publishedShowing f).inLine s.figure s.cal.m)
    (by rw [drawn]; dsimp only; split <;> rfl)
    (by
      have : ((s.publishedShowing f).inLine s.figure s.cal.m).effective = (boardMinute s.cal.d0 f.start).toNat + publishDelay f := rfl
      omega)
  rw [drawn] at rest
  rw [rest] at moved
  have pace : y.pace = 0 := by rw [moved]
  have unfast : y.fast = false := by
    rcases fast with e | e
    · rw [e]
    · rw [e]
      exact nextFast_of_pace (by omega)
  rw [unfast] at moved
  have delay : publishDelay f = f.delay.elim 0 fun d => min 180 d.toNat := congrArg Showing.delay drawn
  have noticed : publishDelay f ≠ 0 → s.DelayNoticed (settle v) f.id.toNat (publishDelay f) b := fun k =>
    (delayed k).congr (heard_notices t n settled).symm (by rw [heard_cal t n settled]) rfl
  refine ⟨settle v, y, b, by subst hn; exact request_ends ht _ 32 body, ?_, ?_, ?_, recorded.here, ?_, ?_, ?_, ?_⟩
  · rw [← delay]
    by_cases hd : publishDelay f = 0
    · simp [hd, (undelayed hd).1]
    · rw [(noticed hd).mark]
      exact ⟨fun k => ⟨Nat.pos_of_ne_zero hd, k⟩, fun k => k.2⟩
  · rw [← delay]
    by_cases hd : publishDelay f = 0
    · exact fun _ => (undelayed hd).2.trans (heard_notices t n settled)
    · exact fun k => (noticed hd).kept (k.resolve_left hd)
  · rw [← delay]
    intro hs hd
    exact ⟨(noticed hd.ne').updated hs, (noticed hd.ne').created hs⟩
  · rw [moved]
    dsimp only
    congr 1
    generalize (f.salesOpen.map fun o => (s.cal.d0 + 1440 * (o.day.toNat : Int) + (o.minute.toNat : Int)).toNat).elim false
      (fun o => decide (s.cal.m < o)) = waits
    cases waits
    · simp only [reduceCtorEq, Bool.false_eq_true, and_false, if_false, false_or]
      refine if_congr ?_ rfl rfl
      unfold Showing.effective
      dsimp only
      unfold boardMinute at start
      omega
    · rfl
  · rw [moved]
  · exact fun i hi => (recorded.others i hi).trans (heard_showing? t n settled i)
  · rw [ended, frame, journal]

/-! ### MOVE -/

theorem moveRefusal_none {f : MoveFields} {x : Showing} (h : s.moveRefusal f = none) (hx : s.showing? f.id.toNat = some x) :
    (x.state = .planned ∨ x.state = .onSale) ∧ s.cal.m < (s.movedShowing f x).effective := by
  unfold State.moveRefusal at h
  iterate 2 (split at h; · cases h)
  rw [hx] at h
  dsimp only at h
  split at h
  · cases h
  next states =>
    iterate 2 (split at h; · cases h)
    split at h
    · cases h
    next ahead =>
      simp only [startPast, decide_eq_true_eq, not_or, Int.not_lt, Int.not_le] at ahead
      refine ⟨by rw [not_and_or, not_not, not_not] at states; exact states, ?_⟩
      have : (s.movedShowing f x).effective = (movedStart s.cal.d0 f x).toNat + x.delay := rfl
      omega

/-- The record of a MOVE before it is judged: with a new capacity it is brought into line, with a new start its fast flag is recomputed
(R52, R93). -/
def State.relocated (s : State) (f : MoveFields) (x : Showing) : Showing :=
  if s.movedCapacity f x = x.cap then
    if (s.movedShowing f x).start = x.start then s.movedShowing f x
    else { s.movedShowing f x with fast := (s.movedShowing f x).nextFast s.cal.m }
  else ({ s.movedShowing f x with cap := s.movedCapacity f x } : Showing).inLine s.figure s.cal.m

/-- The amendment of a MOVE (R52). -/
def State.relocate (s : State) (f : MoveFields) (x : Showing) : State :=
  if s.movedCapacity f x = x.cap then
    if (s.movedShowing f x).start = x.start then s.modShowing x.id (s.movedShowing f)
    else recomputeFast x.id (s.modShowing x.id (s.movedShowing f))
  else seatChange .capacity x.id (s.movedCapacity f x) (fun y => { y with cap := s.movedCapacity f x })
    (s.modShowing x.id (s.movedShowing f))

theorem relocate_done (f : MoveFields) {x : Showing} (hx : s.showing? x.id = some x) :
    Recorded x.id (some (s.relocated f x)) s (s.relocate f x) ∧
      ∃ xs ob jb, s.relocate f x = { s with showings := xs, outbox := ob, journalBox := jb } := by
  have moved : Recorded x.id (some (s.movedShowing f x)) s (s.modShowing x.id (s.movedShowing f)) :=
    modShowing_recorded hx fun _ e => e
  unfold State.relocate State.relocated
  split
  · split
    · exact ⟨moved, _, _, _, rfl⟩
    · exact ⟨moved.then (modShowing_recorded (f := fun y => { y with fast := y.nextFast s.cal.m }) moved.here fun _ e => e), _, _, _, rfl⟩
  · have changed := changeSeats_recorded (.seats x.id) (id := x.id) (x := s.movedShowing f x)
      (f := fun y => { y with cap := s.movedCapacity f x }) rfl moved.here
    refine ⟨moved.then (changed.same (journalShowing_seats _ _ _ _ _).showings), ?_⟩
    obtain ⟨xs, ob, e⟩ := changeSeats_only (.seats x.id) x.id (fun y => { y with cap := s.movedCapacity f x })
      (s.modShowing x.id (s.movedShowing f))
    unfold seatChange journalShowing
    rw [changed.here]
    exact ⟨xs, ob, _, by rw [e]; rfl⟩

/-- What a MOVE leaves of the record it relocates (R52). -/
theorem relocated_eq (s : State) (f : MoveFields) (x : Showing) :
    s.relocated f x = { x with
      auditorium := f.auditorium.elim x.auditorium BitVec.toNat
      start := f.start.elim x.start fun r => (s.cal.d0 + 1440 * (r.day.toNat : Int) + (r.minute.toNat : Int)).toNat
      salesOpen := (f.salesOpen.map fun r => (s.cal.d0 + 1440 * (r.day.toNat : Int) + (r.minute.toNat : Int)).toNat).or x.salesOpen
      cap := s.movedCapacity f x
      band := (s.relocated f x).band
      fast := (s.relocated f x).fast
      oversold := (s.relocated f x).oversold } := by
  have start : (movedStart s.cal.d0 f x).toNat =
      f.start.elim x.start fun r => (s.cal.d0 + 1440 * (r.day.toNat : Int) + (r.minute.toNat : Int)).toNat := by
    unfold movedStart
    cases f.start <;> rfl
  have opens : (match f.salesOpen with | some o => some (boardMinute s.cal.d0 o).toNat | none => x.salesOpen) =
      (f.salesOpen.map fun r => (s.cal.d0 + 1440 * (r.day.toNat : Int) + (r.minute.toNat : Int)).toNat).or x.salesOpen := by
    cases f.salesOpen <;> rfl
  rw [← start, ← opens]
  unfold State.relocated
  split
  next e =>
    rw [e]
    split <;> rfl
  · rfl

theorem relocated_kept {f : MoveFields} {x : Showing} (h : s.movedCapacity f x = x.cap) :
    (s.relocated f x).band = x.band ∧ (s.relocated f x).oversold = x.oversold := by
  unfold State.relocated
  rw [if_pos h]
  split <;> exact ⟨rfl, rfl⟩

theorem relocated_oversold {f : MoveFields} {x : Showing} (h : s.movedCapacity f x ≠ x.cap) :
    (s.relocated f x).oversold = decide (s.movedCapacity f x < x.sold + x.held) := by
  unfold State.relocated
  rw [if_neg h]
  rfl

/-- A capacity is clamped where it lies above 1500. -/
theorem capacity_clamped (o : Option Half) :
    ifPresent (fun c => clamp 0 1500 c.toNat != c.toNat) o = o.elim false fun c => decide (1500 < c.toNat) := by
  cases o with
  | none => rfl
  | some c =>
    show (clamp 0 1500 c.toNat != c.toNat) = _
    rw [clamp_eq, clamp_ne (by omega)]
    simp

/-- MOVE carried out (R52). -/
theorem move_done {f : MoveFields} {x : Showing} (ok : s.moveRefusal f = none) (hx : s.showing? f.id.toNat = some x) : ∃ v y,
    move f s = (done (ifPresent (fun c => clamp 0 1500 c.toNat != c.toNat) f.capacity)
      (u8 y.auditorium ++ u24 y.start ++ u24 y.effective ++ u16 y.cap ++ u8 y.state.code), v) ∧
    Recorded f.id.toNat (some y) s v ∧
    y = { s.relocated f x with state := (s.relocated f x).restAt s.life s.cal.m, fast := y.fast } ∧
    ∃ xs ob jb, v = { s with showings := xs, outbox := ob, journalBox := jb } := by
  have id := (findKey_mem Showing.id hx).2
  obtain ⟨state, ahead⟩ := moveRefusal_none ok hx
  rw [← id] at hx
  obtain ⟨relocated, xs, ob, jb, frame⟩ := relocate_done f hx
  have same : (s.relocated f x).state = x.state ∧ (s.relocated f x).effective = (s.movedShowing f x).effective := by
    unfold State.relocated
    split
    · split <;> exact ⟨rfl, rfl⟩
    · exact ⟨rfl, rfl⟩
  have early : (s.relocated f x).state.early = true := by
    rw [same.1]
    rcases state with e | e <;> rw [e] <;> rfl
  let w := raiseAmendment x.id x.state (s.relocate f x)
  have standing : Recorded x.id (some (s.relocated f x)) s w := relocated.same rfl
  have hw : w = { s with showings := xs, outbox := w.outbox, journalBox := jb } := by
    show raiseAmendment x.id x.state (s.relocate f x) = { s with showings := xs, outbox := (raiseAmendment x.id x.state (s.relocate f x)).outbox, journalBox := jb }
    rw [frame]
    rfl
  have cal : w.cal = s.cal := by rw [hw]
  have life : w.life = s.life := by rw [hw]
  have later : w.cal.m < (s.relocated f x).effective := by rw [cal, same.2]; exact ahead
  obtain ⟨-, live⟩ := judgeShowing_judged lifeSteps (steps_le_lifeSteps _) standing.here
  obtain ⟨y, recorded, judged⟩ := live (not_freed_early early later)
  have moved := judged.early early later
  rw [cal, life] at moved
  obtain ⟨xs', ob', hv⟩ := judgeShowing_early lifeSteps standing.here early later
  refine ⟨judgeShowing lifeSteps x.id w, y, ?_, id ▸ standing.then recorded, moved, xs', ob', jb, by rw [hv, hw]⟩
  unfold move
  rw [ok, ← id, hx]
  dsimp only
  refine Prod.ext ?_ rfl
  show done _ ((judgeShowing lifeSteps x.id w).fromShowing x.id _) = _
  unfold State.fromShowing
  rw [recorded.here]

theorem heard_moveRefusal (t : Txn) (n : Nat) (h : s.Settled) (f : MoveFields) : (heard t n s).moveRefusal f = s.moveRefusal f := by
  rw [heard_eq t n h]
  rfl

theorem heard_relocated (t : Txn) (n : Nat) (h : s.Settled) (f : MoveFields) (x : Showing) :
    (heard t n s).relocated f x = s.relocated f x := by
  rw [heard_eq t n h]
  rfl

theorem move_amends {t : Txn} {f : MoveFields} {x : Showing} {cap : Nat} (ht : Taken t [.schedule, .service] s)
    (ok : s.moveRefusal f = none) (hx : s.showing? f.id.toNat = some x) (hcap : s.movedCapacity f x = cap) :
    let minute := fun r : RelTime => (s.cal.d0 + 1440 * (r.day.toNat : Int) + (r.minute.toNat : Int)).toNat
    let start := f.start.elim x.start minute
    let opens := (f.salesOpen.map minute).or x.salesOpen
    ∃ (u : State) (y : Showing),
      exec (.move t f) s = .next (replied t 33 (done (f.capacity.elim false fun c => decide (1500 < c.toNat))
        (u8 y.auditorium ++ u24 y.start ++ u24 (y.start + y.delay) ++ u16 y.cap ++ u8 y.state.code)) u) ∧
      u.showing? f.id.toNat = some y ∧
      y = { x with
        auditorium := f.auditorium.elim x.auditorium BitVec.toNat
        start
        salesOpen := opens
        cap
        state := if (decide (x.state = .planned) && opens.elim false fun o => decide (s.cal.m < o)) = true then .planned
          else if start + x.delay ≤ s.cal.m + s.life.lead then .seating else .onSale
        band := y.band
        fast := y.fast
        oversold := y.oversold } ∧
      (cap = x.cap → y.band = x.band ∧ y.oversold = x.oversold) ∧
      (cap ≠ x.cap → (y.oversold = true ↔ cap < x.sold + x.held)) ∧
      (∀ id, id ≠ f.id.toNat → u.showing? id = s.showing? id) ∧
      u = { heard t ((Wire.moveBytes f).length + 2) s with
        showings := u.showings
        journal := u.journal
        queues := u.queues
        choice := u.choice } := by
  dsimp only
  have settled := ht.settled
  obtain ⟨n, hn⟩ : ∃ n, n = (Wire.moveBytes f).length + 2 := ⟨_, rfl⟩
  rw [← hn]
  obtain ⟨v, y, body, recorded, moved, xs, ob, jb, frame⟩ := move_done (s := heard t n s) (f := f) (x := x)
    (by rw [heard_moveRefusal t n settled]; exact ok) (by rw [heard_showing? t n settled]; exact hx)
  rw [heard_relocated t n settled, heard_cal t n settled, heard_life t n settled] at moved
  obtain ⟨state, ahead⟩ := moveRefusal_none ok hx
  obtain ⟨j, q, c, ended, -⟩ := settle_beside (heard_settled t n settled) v
  subst hcap
  have relocated := relocated_eq s f x
  have early : (s.relocated f x).state.early = true := by
    rw [relocated]
    rcases state with e | e <;> simp [e, ShowState.early]
  have rest := restAt_early (life := s.life) (m := s.cal.m) early (by
    have : (s.relocated f x).effective = (s.movedShowing f x).effective := by
      unfold State.relocated
      split
      · split <;> rfl
      · rfl
    rw [this]
    exact ahead)
  have figures : y.band = (s.relocated f x).band ∧ y.oversold = (s.relocated f x).oversold := by rw [moved]; exact ⟨rfl, rfl⟩
  refine ⟨settle v, y, ?_, recorded.here, ?_, fun k => ?_, fun k => ?_, ?_, ?_⟩
  · rw [← capacity_clamped]
    subst hn
    exact request_ends ht _ 33 body
  · rw [rest, relocated] at moved
    rw [figures.1, figures.2]
    refine moved.trans ?_
    dsimp only [Showing.effective]
    congr 1
    rcases state with e | e <;> simp [e]
  · rw [figures.1, figures.2]
    exact relocated_kept k
  · rw [figures.2, relocated_oversold k, decide_eq_true_eq]
  · exact fun i hi => (recorded.others i hi).trans (heard_showing? t n settled i)
  · rw [ended, frame]

/-- Settles O23: the record is relocated and judged before its effective start. -/
theorem moveAmendsTheShowing : Obligations.MoveAmendsTheShowing := by
  unfold Obligations.MoveAmendsTheShowing
  intro t f x s ht ok hx
  dsimp only
  refine move_amends ht ok hx ?_
  unfold State.movedCapacity
  cases f.capacity with
  | some c => exact Nat.max_eq_right (Nat.zero_le _)
  | none =>
    cases f.auditorium with
    | some a => rfl
    | none => rfl

/-! ### DELAY -/

/-- Where a record not yet STARTED comes to rest (R38). -/
theorem restAt_waiting {life : LifeSettings} {m : Nat} {x : Showing} (hst : x.state.early = true) :
    x.restAt life m =
      if (decide (x.state = .planned) && x.salesOpen.elim false fun o => decide (m < o)) = true then .planned
      else if m < x.effective then (if x.state = .seating ∨ x.effective ≤ m + life.lead then .seating else .onSale)
      else if m < x.effective + life.late then .started
      else if m < x.effective + x.runtime then .closed
      else .ended := by
  by_cases ahead : m < x.effective
  · rw [restAt_early hst ahead, if_pos ahead]
    simp only [Bool.and_eq_true, decide_eq_true_eq]
  · have reached : x.start + x.delay ≤ m := Nat.not_lt.1 ahead
    have near : x.start + x.delay ≤ m + life.lead := by omega
    rw [if_neg ahead]
    unfold Showing.restAt Showing.effective
    have begun : ∀ a : ShowState, a = .onSale ∨ a = .seating →
        (let b : ShowState := if a = .onSale ∧ x.start + x.delay ≤ m + life.lead then .seating else a
         let c : ShowState := if b = .seating ∧ x.start + x.delay ≤ m then .started else b
         let d : ShowState := if c = .started ∧ x.start + x.delay + life.late ≤ m then .closed else c
         if d = .closed ∧ x.start + x.delay + x.runtime ≤ m then .ended else d) =
        if m < x.start + x.delay + life.late then ShowState.started
        else if m < x.start + x.delay + x.runtime then .closed else .ended := fun a ha => by
      have seated : (if a = .onSale ∧ x.start + x.delay ≤ m + life.lead then .seating else a) = ShowState.seating := by
        rcases ha with rfl | rfl <;> simp [near]
      dsimp only
      rw [seated, if_pos (c := ShowState.seating = .seating ∧ x.start + x.delay ≤ m) ⟨rfl, reached⟩]
      by_cases closes : x.start + x.delay + life.late ≤ m <;> by_cases ends : x.start + x.delay + x.runtime ≤ m <;>
        simp [closes, ends, ← Nat.not_le]
    cases e : x.state <;> rw [e] at hst <;> try cases hst
    · cases hopens : x.salesOpen with
      | none => simpa using begun .onSale (.inl rfl)
      | some o =>
        by_cases opened : o ≤ m
        · simpa [opened, Nat.not_lt.2 opened] using begun .onSale (.inl rfl)
        · simp [opened, Nat.not_le.1 opened]
    · simpa using begun .onSale (.inl rfl)
    · simpa using begun .seating (.inr rfl)

/-- A record not yet STARTED is freed where every minute of its life is past (R43, R44). -/
theorem freedAt_waiting {life : LifeSettings} {m : Nat} {x : Showing} (hst : x.state.early = true) :
    x.FreedAt life m ↔ (decide (x.state = .planned) && x.salesOpen.elim false fun o => decide (m < o)) = false ∧
      x.effective + life.late ≤ m ∧ x.effective + x.runtime ≤ m ∧ min 1048575 (x.effective + x.runtime + life.linger) ≤ m := by
  have not_ended : x.state ≠ .ended := fun e => by rw [e] at hst; cases hst
  have rest := restAt_waiting (life := life) (m := m) hst
  have ended : x.restAt life m = .ended ↔ (decide (x.state = .planned) && x.salesOpen.elim false fun o => decide (m < o)) = false ∧
      x.effective + life.late ≤ m ∧ x.effective + x.runtime ≤ m := by
    rw [rest]
    generalize (decide (x.state = .planned) && x.salesOpen.elim false fun o => decide (m < o)) = waits
    cases waits
    · simp only [Bool.false_eq_true, if_false, true_and]
      constructor
      · intro h
        split at h
        · split at h <;> cases h
        · split at h
          · cases h
          · split at h
            · cases h
            · omega
      · rintro ⟨h1, h2⟩
        rw [if_neg (by omega), if_neg (by omega), if_neg (by omega)]
    · simp
  have not_cancelled : x.restAt life m ≠ .cancelled := by
    rw [rest]
    split
    · simp
    · split
      · split <;> simp
      · split
        · simp
        · split <;> simp
  unfold Showing.FreedAt Showing.purgeAtRest
  constructor
  · rintro ⟨gone, d, hd, le⟩
    have hended := gone.resolve_right not_cancelled
    rw [if_pos ⟨not_ended, hended⟩] at hd
    obtain ⟨h1, h2, h3⟩ := ended.1 hended
    exact ⟨h1, h2, h3, by rw [← Option.some.inj hd] at le; exact le⟩
  · rintro ⟨h1, h2, h3, h4⟩
    have hended := ended.2 ⟨h1, h2, h3⟩
    exact ⟨.inl hended, _, if_pos ⟨not_ended, hended⟩, h4⟩

theorem retireNotices_only (g : Source) (ids : List Nat) (s : State) : ∃ n cs ps qs ob c, retireNotices g ids s =
    { s with notices := n, carousels := cs, plays := ps, panels := qs, outbox := ob, choice := c } := by
  unfold retireNotices
  split
  · exact ⟨_, _, _, _, _, _, rfl⟩
  · have told : ∀ (l : List Nat) (u : State), ∃ ob, raiseNotices g noticeRetired l u = { u with outbox := ob } := fun l => by
      induction l with
      | nil => exact fun u => ⟨_, rfl⟩
      | cons i l ih =>
        intro u
        obtain ⟨ob, e⟩ := ih (raise g .noticeState i noticeRetired u)
        exact ⟨ob, e⟩
    obtain ⟨ob, e⟩ := told (anyOrder s.choice Source.notice ids) { s with choice := s.choice + ids.length }
    dsimp only
    obtain ⟨cs, ps, qs, only⟩ := judgeTakeover_only (freeNotices ids
      (raiseNotices g noticeRetired (anyOrder s.choice Source.notice ids) { s with choice := s.choice + ids.length }))
    rw [only, e]
    exact ⟨_, _, _, _, _, _, rfl⟩

theorem noticeForDelay_frame (id delay : Nat) (s : State) : ∃ n cs ps qs ob c, (noticeForDelay id delay s).1 =
    { s with notices := n, carousels := cs, plays := ps, panels := qs, outbox := ob, choice := c } := by
  by_cases hd : delay = 0
  · unfold noticeForDelay retireDelayed
    rw [if_pos hd]
    dsimp only
    split
    · exact retireNotices_only _ _ s
    · exact ⟨_, _, _, _, _, _, rfl⟩
  · obtain ⟨n, ob, e⟩ := noticeForDelay_only id hd s
    exact ⟨n, _, _, _, ob, _, e⟩

/-- The five steps of a DELAY up to its judging (R54). -/
def State.delayed (s : State) (id delay : Nat) (st : ShowState) : State × Bool :=
  noticeForDelay id delay (raiseAmendment id st (recomputeFast id (s.modShowing id fun y => { y with delay })))

theorem delayed_frame (s : State) (id delay : Nat) (st : ShowState) : ∃ xs n cs ps qs ob c, (s.delayed id delay st).1 =
    { s with showings := xs, notices := n, carousels := cs, plays := ps, panels := qs, outbox := ob, choice := c } := by
  obtain ⟨n, cs, ps, qs, ob, c, e⟩ := noticeForDelay_frame id delay
    (raiseAmendment id st (recomputeFast id (s.modShowing id fun y => { y with delay })))
  exact ⟨_, n, cs, ps, qs, ob, c, e⟩

theorem delayed_recorded {id : Nat} (delay : Nat) {x : Showing} (hx : s.showing? id = some x) :
    Recorded id (some { x with delay, fast := ({ x with delay } : Showing).nextFast s.cal.m }) s (s.delayed id delay x.state).1 := by
  have moved := modShowing_recorded (f := fun y => { y with delay }) hx fun _ e => e
  have fast := modShowing_recorded (f := fun y => { y with fast := y.nextFast s.cal.m }) moved.here fun _ e => e
  exact (moved.then fast).same (noticeForDelay_seats _ _ _).showings

theorem delayed_delayNoticed (s : State) (id : Nat) {delay : Nat} (st : ShowState) (hd : delay ≠ 0) :
    s.DelayNoticed (s.delayed id delay st).1 id delay (s.delayed id delay st).2 :=
  (noticeForDelay_delayNoticed id hd (raiseAmendment id st (recomputeFast id (s.modShowing id fun y => { y with delay })))).congr rfl rfl rfl

theorem delayed_retired (s : State) (id : Nat) {delay : Nat} (st : ShowState) (hd : delay = 0) : (s.delayed id delay st).2 = false ∧
    (∀ i, (s.delayed id delay st).1.notice? i = if (s.delayedNotice id).map Notice.id = some i then none else s.notice? i) ∧
    (s.delayed id delay st).1.notices.activation =
      s.notices.activation.filter fun i => decide ((s.delayedNotice id).map Notice.id ≠ some i) := by
  subst hd
  exact ⟨rfl, retireDelayed_read (.showing id) id (raiseAmendment id st (recomputeFast id (s.modShowing id fun y => { y with delay := 0 })))⟩

/-- DELAY carried out (R54). -/
theorem delay_done {id : Nat} (d : Byte) {x : Showing} (hid : id ≠ 0) (hx : s.showing? id = some x) (hst : x.state.early = true)
    (room : x.start + delayOf d + x.runtime ≤ 1048575) :
    delayShowing id d s = (done (delayOf d != d.toNat)
      (u8 (((judgeShowing lifeSteps id (s.delayed id (delayOf d) x.state).1).showing? id).elim
        (Config.freedState (judgeShowing lifeSteps id (s.delayed id (delayOf d) x.state).1).choice) fun y => y.state.code)
        ++ u24 (x.start + delayOf d)
        ++ idOrNone (((judgeShowing lifeSteps id (s.delayed id (delayOf d) x.state).1).delayedNotice id).map Notice.id)
        ++ mark (s.delayed id (delayOf d) x.state).2), judgeShowing lifeSteps id (s.delayed id (delayOf d) x.state).1) := by
  have states : ¬ (x.state ≠ .planned ∧ x.state ≠ .onSale ∧ x.state ≠ .seating) := by
    rintro ⟨h1, h2, h3⟩
    cases e : x.state <;> simp_all [ShowState.early]
  unfold delayShowing
  rw [if_neg hid, hx]
  dsimp only
  rw [if_neg states, if_neg (show ¬ Config.limitM < _ from Nat.not_lt.2 room)]
  rfl

/-- Settles O24: the record, then its DELAYED notice, then the judging, each read by its own lemma. -/
theorem delayAmendsTheShowing : Obligations.DelayAmendsTheShowing := by
  unfold Obligations.DelayAmendsTheShowing
  intro t id d x s ht hid hx states
  dsimp only
  intro room
  have settled := ht.settled
  have hst : x.state.early = true := by rcases states with e | e | e <;> rw [e] <;> rfl
  have delay : delayOf d = min 180 d.toNat := Nat.max_eq_right (Nat.zero_le _)
  have clamped : (delayOf d != d.toNat) = decide (180 < d.toNat) := by
    show (clamp 0 180 d.toNat != d.toNat) = _
    rw [clamp_eq, clamp_ne (by omega)]
    simp
  have hx' : (heard t 5 s).showing? id.toNat = some x := by rw [heard_showing? t 5 settled]; exact hx
  rw [← delay] at room ⊢
  have body := delay_done d hid hx' hst room
  rw [clamped] at body
  obtain ⟨xs, n, cs, ps, qs, ob, c, frame⟩ := delayed_frame (heard t 5 s) id.toNat (delayOf d) x.state
  have standing := delayed_recorded (delayOf d) hx'
  have noticed := delayed_delayNoticed (heard t 5 s) id.toNat (delay := delayOf d) x.state
  have retired := delayed_retired (heard t 5 s) id.toNat (delay := delayOf d) x.state
  generalize hu : (heard t 5 s).delayed id.toNat (delayOf d) x.state = ub at body frame standing noticed retired
  obtain ⟨u, b⟩ := ub
  dsimp only at body frame standing noticed retired
  have cal : u.cal = s.cal := by rw [frame]; exact heard_cal t 5 settled
  have life : u.life = s.life := by rw [frame]; exact heard_life t 5 settled
  obtain ⟨freed, live⟩ := judgeShowing_judged lifeSteps (steps_le_lifeSteps _) standing.here
  have rest := restAt_waiting (life := s.life) (m := s.cal.m)
    (x := { x with delay := delayOf d, fast := ({ x with delay := delayOf d } : Showing).nextFast (heard t 5 s).cal.m }) hst
  have gone := freedAt_waiting (life := s.life) (m := s.cal.m)
    (x := { x with delay := delayOf d, fast := ({ x with delay := delayOf d } : Showing).nextFast (heard t 5 s).cal.m }) hst
  have early := judgeShowing_early lifeSteps standing.here hst
  rw [cal, life] at freed live
  rw [cal] at early
  have work := (judgeShowing_work lifeSteps id.toNat u).frame
  generalize hv : judgeShowing lifeSteps id.toNat u = v at body freed live early work
  obtain ⟨j, q, c', ended, hj⟩ := settle_beside (heard_settled t 5 settled) v
  have others : ∀ i, i ≠ id.toNat → v.showing? i = s.showing? i := fun i hi => by
    have judged : v.showing? i = u.showing? i := by
      by_cases f : ({ x with delay := delayOf d, fast := ({ x with delay := delayOf d } : Showing).nextFast (heard t 5 s).cal.m } : Showing).FreedAt s.life s.cal.m
      · exact (freed f).others i hi
      · obtain ⟨y, hy, -⟩ := live f
        exact hy.others i hi
    exact judged.trans ((standing.others i hi).trans (heard_showing? t 5 settled i))
  have marked : delayOf d ≠ 0 → s.DelayNoticed u id.toNat (delayOf d) b := fun k =>
    (noticed k).congr (heard_notices t 5 settled).symm (heard_cal t 5 settled).symm rfl
  refine ⟨settle v, _, b, request_ends ht 5 34 body, ?_, others, ?_, fun y hy => ?_, fun ahead => ?_, fun ahead hs => ?_, ?_⟩
  · by_cases hd : delayOf d = 0
    · simp [hd, (retired hd).1]
    · rw [(marked hd).mark]
      exact ⟨fun k => ⟨Nat.pos_of_ne_zero hd, k⟩, fun k => k.2⟩
  · refine Iff.trans ?_ gone
    constructor
    · intro none
      by_contra f
      obtain ⟨y, hy, -⟩ := live f
      exact absurd (none.symm.trans hy.here) (by simp)
    · exact fun f => (freed f).here
  · have hy : v.showing? id.toNat = some y := hy
    have kept : ¬ _ := fun f => absurd ((freed f).here.symm.trans hy) (by simp)
    obtain ⟨z, hz, judged⟩ := live kept
    obtain rfl := Option.some.inj (hy.symm.trans hz.here)
    have record := judged.record
    rw [cal, life, rest] at record
    refine ⟨?_, ?_, fun ahead => ?_⟩
    · rw [hy]
      exact congrArg (fun z : Showing => z.state.code) record
    · have purge := congrArg Showing.purge record
      dsimp only at purge
      rw [purge]
      exact record
    · have moved := judged.early hst (by rw [cal]; exact ahead)
      rw [cal, life, rest] at moved
      exact moved
  · obtain ⟨xs', ob', hv'⟩ := early ahead
    have box : v.journalBox = [] := by
      rw [hv', frame]
      exact (heard_settled t 5 settled).2
    constructor
    · rw [ended, hv', frame]
      exact heard_holds t 5 settled
    · rw [ended, hj box, hv', frame]
      exact heard_journal t 5 settled
  · obtain ⟨xs', ob', hv'⟩ := early ahead
    have notices : (settle v).notices = u.notices := by rw [ended, hv']
    have settledNotice : delayOf d ≠ 0 → s.DelayNoticed (settle v) id.toNat (delayOf d) b := fun k => (marked k).congr rfl rfl notices
    refine ⟨fun hd => ?_, fun hd => (settledNotice hd.ne').updated hs, fun hb => ?_, fun hd => (settledNotice hd.ne').created hs⟩
    · obtain ⟨-, read, activation⟩ := retired hd
      rw [State.delayedNotice_congr (s := s) (heard_notices t 5 settled)] at read activation
      refine ⟨fun i => ?_, ?_⟩
      · rw [← heard_notice? t 5 settled, ← read i]
        exact State.notice?_congr (by rw [notices]) i
      · rw [notices, activation, heard_notices t 5 settled]
    · by_cases hd : delayOf d = 0
      · rw [(retired hd).1] at hb
        cases hb
      · exact (settledNotice hd).kept hb
  · rw [ended, work, frame]

/-! ### CANCEL -/

theorem releaseHolds_holds (g : Source) (reason : Nat) (kind : JournalKind) {id : Nat} {x : Showing} (hx : s.showing? id = some x)
    (hs : Rising (s.holds.map Hold.tag)) :
    (releaseHolds g reason kind id s).holds = s.holds.filter fun h => decide (h.showing ≠ id) := by
  unfold releaseHolds
  rw [(endHolds_seats g reason kind _ _ hx).2, tags_of_filter hs]
  exact List.filter_congr fun h _ => by by_cases e : h.showing = id <;> simp [e]

/-- Holds that make up all of H ended. -/
theorem releaseHolds_none (g : Source) (reason : Nat) (kind : JournalKind) {id : Nat} {x : Showing} (hx : s.showing? id = some x)
    (h : x.held - s.heldBy id = 0) :
    Recorded id (some (({ x with held := 0, pace := 0 } : Showing).inLine s.figure s.cal.m)) s (releaseHolds g reason kind id s) := by
  have released := releaseHolds_recorded g reason kind hx
  rwa [h] at released

/-- CANCEL carried out (R45, R74, R110): what it leaves of the record, the holds and the notices. -/
theorem cancel_done {id : Nat} {x : Showing} (hs : s.Seated) (hid : id ≠ 0) (hx : s.showing? id = some x) (h1 : x.state ≠ .ended)
    (h2 : x.state ≠ .cancelled) :
    (cancel id s).1 = done false (u24 (min 1048575 (s.cal.m + s.life.linger))) ∧
    Recorded id (some (({ x with
        state := .cancelled, purge := some (min 1048575 (s.cal.m + s.life.linger)), held := 0, pace := 0 } : Showing).inLine s.figure
      s.cal.m)) s (cancel id s).2 ∧
    (cancel id s).2.holds = s.holds.filter (fun h => decide (h.showing ≠ id)) ∧
    (∀ i, (cancel id s).2.notice? i = if (s.delayedNotice id).map Notice.id = some i then none else s.notice? i) ∧
    (cancel id s).2.notices.activation =
      s.notices.activation.filter fun i => decide ((s.delayedNotice id).map Notice.id ≠ some i) := by
  unfold cancel
  rw [if_neg hid, hx]
  dsimp only
  rw [if_neg (by simp [h1, h2])]
  have purged := modShowing_recorded (f := fun y => { y with purge := some (purgeAt (s.cal.m + s.life.linger)) }) hx fun _ e => e
  have entered := purged.then (enterState_recorded .cancelled purged.here)
  generalize ht : transitionTo id .cancelled (s.modShowing id fun y => { y with purge := some (purgeAt (s.cal.m + s.life.linger)) }) = t
  have standing : Recorded id _ s { t with outbox := [] } := (entered.same (u := { t with outbox := [] }) (by rw [← ht]; rfl))
  have holds : t.holds = s.holds := by rw [← ht]; rfl
  have notices : t.notices = s.notices := by rw [← ht]; rfl
  have cal : t.cal = s.cal := by rw [← ht]; rfl
  have figure : t.figure = s.figure := by rw [← ht]; rfl
  have seats : x.held - (State.heldBy { t with outbox := [] } id) = 0 := by
    rw [heldBy_congr_holds (s := s) (t := { t with outbox := [] }) holds]
    have := hs.sums x (findKey_mem Showing.id hx).1
    rw [(findKey_mem Showing.id hx).2] at this
    omega
  have released := releaseHolds_none (.seats id) endCancelled .cancelRelease standing.here seats
  have freed := releaseHolds_holds (.seats id) endCancelled .cancelRelease standing.here (by rw [holds]; exact hs.holds)
  have told : (releaseHolds (.seats id) endCancelled .cancelRelease id { t with outbox := [] }).notices = s.notices :=
    (endHolds_notices _ _ _ _ _ _ _).trans notices
  have retired := retireDelayed_read (.showing id) id (releaseHolds (.seats id) endCancelled .cancelRelease id { t with outbox := [] })
  have kept := retireDelayed_seats (.showing id) id (releaseHolds (.seats id) endCancelled .cancelRelease id { t with outbox := [] })
  rw [State.delayedNotice_congr told, told] at retired
  refine ⟨rfl, ?_, ?_, fun i => ?_, retired.2⟩
  · have record := standing.then (released.same kept.showings)
    have final : Recorded id _ s (inAnyOrder (.showing id)
        (fun t => retireDelayed (.showing id) id (releaseHolds (.seats id) endCancelled .cancelRelease id t)) t) := record.same rfl
    simp only [figure, cal] at final
    exact final
  · exact kept.holds.trans (freed.trans (by rw [holds]))
  · exact (retired.1 i).trans (by rw [State.notice?_congr (s := s) (by rw [told]) i])

/-- Settles O26: the record is cancelled, its holds end together, and its DELAYED notice is retired. -/
theorem cancelReleasesTheShowing : Obligations.CancelReleasesTheShowing := by
  unfold Obligations.CancelReleasesTheShowing
  intro t id x s ht hs hid hx h1 h2
  dsimp only
  have settled := ht.settled
  have seated : (heard t 4 s).Seated := by rw [heard_eq t 4 settled]; exact ⟨hs.showings, hs.holds, hs.sums, hs.named⟩
  obtain ⟨answer, recorded, holds, read, activation⟩ := cancel_done seated hid (by rw [heard_showing? t 4 settled]; exact hx) h1 h2
  have work := (cancel_work id.toNat (heard t 4 s)).frame
  obtain ⟨j, q, c, ended, -⟩ := settle_beside (heard_settled t 4 settled) (cancel id.toNat (heard t 4 s)).2
  rw [heard_cal t 4 settled, heard_life t 4 settled] at answer recorded
  rw [State.delayedNotice_congr (s := s) (heard_notices t 4 settled)] at read activation
  refine ⟨_, _, request_ends ht 4 36 (Prod.ext answer rfl), recorded.here, ?_, ?_, ?_, fun _ => ⟨fun i => ?_, ?_⟩, ?_⟩
  · rfl
  · exact holds.trans (by rw [heard_holds t 4 settled])
  · exact fun i hi => (recorded.others i hi).trans (heard_showing? t 4 settled i)
  · exact (read i).trans (by rw [heard_notice? t 4 settled])
  · exact activation.trans (by rw [heard_notices t 4 settled])
  · rw [ended, work]

end Sys2Proof.Machine
end

section
/-! PROOFS about POST NOTICE and WITHDRAW NOTICE (R104 to R109): the notice created, displaced or freed, and the records raised. -/

namespace Sys2Proof.Machine

variable {s t u : State}

/-! ### Records of one source -/

/-- Things of one source keep the order in which they were raised. -/
theorem arrange_source {α : Type} {g : Source} (k : Nat) {l : List (Source × α)} (h : ∀ x ∈ l, x.1 = g) : arrange k l = l := by
  induction l generalizing k with
  | nil => rfl
  | cons x l ih =>
    unfold arrange
    rw [ih _ fun y hy => h y (by simp [hy])]
    have first : l.findIdx (fun y => decide (y.1 = x.1)) = 0 := by
      cases l with
      | nil => rfl
      | cons y l => simp [List.findIdx_cons, h x (by simp), h y (by simp)]
    dsimp only
    rw [if_pos first]

/-- An arrival whose records have one source and that journals nothing. -/
theorem settle_source {g : Source} (h1 : ∀ x ∈ s.outbox, x.1 = g) (h2 : s.journalBox = []) :
    settle s = { s with
      queues := (s.outbox.map fun x => x.2).foldl (offerAll s.ports) s.queues, outbox := [], choice := s.choice + s.outbox.length } := by
  have journal := settledJournal_nil h2
  unfold settle State.settledRecords
  rw [journal, arrange_source _ h1, h2, if_neg (fun k => k.2 k.1)]
  simp only [List.append_nil, List.length_nil, Nat.add_zero]

/-! ### Reading the notices after a change -/

theorem notice?_freeNotices (i : Nat) (s : State) (j : Nat) :
    (freeNotices [i] s).notice? j = if j = i then none else s.notice? j := by
  have erased : (freeNotices [i] s).notices.table = eraseKey Notice.id i s.notices.table :=
    List.filter_congr fun n _ => by by_cases e : n.id = i <;> simp [bne, e]
  show findKey Notice.id j (freeNotices [i] s).notices.table = _
  rw [erased]
  split
  next e => rw [e]; exact findKey_eraseKey_same Notice.id _ _
  next e => exact findKey_eraseKey_other Notice.id _ _ _ e

theorem activation_freeNotices (i : Nat) (s : State) :
    (freeNotices [i] s).notices.activation = s.notices.activation.filter fun j => decide (j ≠ i) :=
  List.filter_congr fun j _ => by by_cases e : j = i <;> simp [e]

theorem notice?_addNotice {n : Notice} (new : ∀ x ∈ s.notices.table, x.id ≠ n.id) (j : Nat) :
    (addNotice n s).notice? j = if j = n.id then some n else s.notice? j := by
  show findKey Notice.id j (insertKey Notice.id n s.notices.table) = _
  split
  next e => rw [e]; exact findKey_insertKey_same Notice.id n _ new
  next e => exact findKey_insertKey_other Notice.id n _ j e

theorem judgeTakeover_notice? (s : State) (j : Nat) : (judgeTakeover s).notice? j = s.notice? j :=
  State.notice?_congr (by rw [judgeTakeover_notices]) j

theorem judgeTakeover_activation (s : State) : (judgeTakeover s).notices.activation = s.notices.activation := by
  rw [judgeTakeover_notices]

/-! ### WITHDRAW NOTICE -/

/-- Settles O37: one notice freed, and the takeover table judged. -/
theorem withdrawNoticeFreesTheNotice : Obligations.WithdrawNoticeFreesTheNotice := by
  unfold Obligations.WithdrawNoticeFreesTheNotice
  intro t id n s ht hid hn
  have settled := ht.settled
  obtain ⟨ho, hj⟩ := heard_settled t 3 settled
  let w := freeNotices [id.toNat] (raise (.notice id.toNat) .noticeState id.toNat noticeWithdrawn (heard t 3 s))
  have body : withdrawNotice id.toNat (heard t 3 s) = (done false (u8 id.toNat ++ u8 n.state.code), judgeTakeover w) := by
    unfold withdrawNotice
    rw [if_neg hid, heard_notice? t 3 settled, hn]
  obtain ⟨cs, ps, qs, only⟩ := judgeTakeover_only w
  have outbox : (judgeTakeover w).outbox = [(.notice id.toNat, s.record .noticeState id.toNat noticeWithdrawn)] := by
    rw [only, ← heard_record t 3 settled]
    show (heard t 3 s).outbox ++ _ = _
    rw [ho]
    rfl
  have ended := settle_one outbox (by rw [only]; exact hj)
  have read : ∀ j, (settle (judgeTakeover w)).notice? j = if j = id.toNat then none else s.notice? j := fun j =>
    (judgeTakeover_notice? w j).trans ((notice?_freeNotices id.toNat _ j).trans (by
      show (if j = id.toNat then none else (heard t 3 s).notice? j) = _
      rw [heard_notice? t 3 settled]))
  refine ⟨settle (judgeTakeover w), request_ends ht 3 65 body, by rw [read, if_pos rfl], fun i hi => by rw [read, if_neg hi], ?_, ?_, ?_⟩
  · refine (judgeTakeover_activation w).trans ((activation_freeNotices id.toNat _).trans ?_)
    show (heard t 3 s).notices.activation.filter _ = _
    rw [heard_notices t 3 settled]
  · rw [ended, only]
    show offerAll (heard t 3 s).ports (heard t 3 s).queues _ = _
    rw [offerAll_role (heard_role t 3 settled), heard_unsold 3 ht (by decide)]
    rfl
  · obtain ⟨j, q, c, beside, journal⟩ := settle_beside (heard_settled t 3 settled) (judgeTakeover w)
    rw [beside, journal (by rw [only]; exact hj), only]
    rfl

/-! ### POST NOTICE with a place free -/

theorem postRefusal_none_form {f : NoticeFields} (h : s.postRefusal f = none) :
    f.cls.toNat ≤ 3 ∧ f.scope.elim 0 BitVec.toNat < 4096 := by
  unfold State.postRefusal at h
  split at h
  · cases h
  next form =>
    simp only [noticeMalformed, Bool.or_eq_true, not_or, decide_eq_true_eq] at form
    obtain ⟨⟨⟨⟨⟨⟨⟨⟨⟨⟨-, -⟩, cls⟩, -⟩, -⟩, -⟩, scope⟩, -⟩, -⟩, -⟩, -⟩ := form
    refine ⟨Nat.not_lt.1 cls, ?_⟩
    cases hs : f.scope with
    | none => exact Nat.zero_lt_succ _
    | some x =>
      rw [hs] at scope
      simpa [ifPresent, panelSetBad] using scope

theorem noticeClass_code {b : Byte} (h : b.toNat ≤ 3) : (noticeClass b).code = b.toNat := by
  unfold noticeClass
  split
  next e => rw [e]; rfl
  · split
    next e => rw [e]; rfl
    · split
      next e => rw [e]; rfl
      · have : b.toNat = 3 := by omega
        rw [this]
        rfl

/-- What a POST NOTICE stores (R105). -/
theorem postedNotice_stored {f : NoticeFields} (ok : s.postRefusal f = none) :
    let minute := fun r : RelTime => s.cal.d0 + 1440 * (r.day.toNat : Int) + (r.minute.toNat : Int)
    let waits := f.activation.elim false fun r => decide ((s.cal.m : Int) < minute r)
    let flash := f.flash.map fun x : Byte × Byte => (max 1 (min 50 x.1.toNat), max 1 (min 50 x.2.toNat))
    let n := s.postedNotice f
    n.id = f.id.toNat ∧ n.cls.code = f.cls.toNat ∧
    n.content = (if f.selector = 0 then .text f.value.toNat else .system f.selector.toNat f.value.toNat) ∧
    n.scope.toNat = f.scope.elim 0 BitVec.toNat ∧ n.link = f.link.map BitVec.toNat ∧
    n.activation = f.activation.map (fun r => (minute r).toNat) ∧ n.expiry = f.expiry.map (fun r => (minute r).toNat) ∧
    n.flash = flash ∧ n.system = false ∧
    n.state = (if waits then .pending else .active) ∧
    n.instant = (if waits then none else some { m := s.cal.m, second := s.cal.second }) ∧
    n.position = (if waits then none else flash.map fun _ => 0) := by
  obtain ⟨cls, scope⟩ := postRefusal_none_form ok
  have waits : ifPresent (fun a => decide ((s.cal.m : Int) < a)) (f.activation.map (boardMinute s.cal.d0)) =
      f.activation.elim false fun r => decide ((s.cal.m : Int) < boardMinute s.cal.d0 r) := by
    cases f.activation <;> rfl
  refine ⟨rfl, noticeClass_code cls, ?_, ?_, rfl, ?_, ?_, rfl, rfl, ?_, ?_, ?_⟩
  · show noticeContent f = _
    unfold noticeContent
    refine if_congr ?_ rfl rfl
    exact (BitVec.toNat_eq (x := f.selector) (y := 0)).symm
  · unfold State.postedNotice
    dsimp only
    cases hs : f.scope with
    | none => rfl
    | some x =>
      rw [hs] at scope
      exact Nat.mod_eq_of_lt scope
  · show (f.activation.map (boardMinute s.cal.d0)).map Int.toNat = _
    rw [Option.map_map]
    rfl
  · show (f.expiry.map (boardMinute s.cal.d0)).map Int.toNat = _
    rw [Option.map_map]
    rfl
  · exact if_congr (by rw [← Bool.eq_iff_iff]; exact waits) rfl rfl
  · exact if_congr (by rw [← Bool.eq_iff_iff]; exact waits) rfl rfl
  · exact if_congr (by rw [← Bool.eq_iff_iff]; exact waits) rfl rfl

theorem heard_postRefusal (t : Txn) (n : Nat) (h : s.Settled) (f : NoticeFields) :
    (heard t n s).postRefusal f = s.postRefusal f := by
  rw [heard_eq t n h]
  rfl

theorem heard_postedNotice (t : Txn) (n : Nat) (h : s.Settled) (f : NoticeFields) :
    (heard t n s).postedNotice f = s.postedNotice f := by
  rw [heard_eq t n h]
  rfl

theorem placeFor_room (h : s.notices.table.length < 32) (c : NoticeClass) : s.placeFor c = .free := if_pos h

/-- The announced state of a notice posted (R115). -/
def Notice.postedDetail (n : Notice) : Nat :=
  match n.state with
  | .active => noticeActive
  | .pending => noticePending

theorem Notice.postedDetail_eq (n : Notice) : n.postedDetail = n.state.code := by
  unfold Notice.postedDetail
  cases n.state <;> rfl

/-- A notice posted over a table that has the place for it. -/
def State.withPosted (s : State) (n : Notice) : State :=
  raise (.notice n.id) .noticeState n.id n.postedDetail (addNotice n s)

theorem judgeTakeover_frame (h : ∃ m ob, t = { s with notices := m, outbox := ob }) : ∃ m cs ps qs ob,
    judgeTakeover t = { s with notices := m, carousels := cs, plays := ps, panels := qs, outbox := ob } := by
  obtain ⟨m, ob, rfl⟩ := h
  obtain ⟨cs, ps, qs, only⟩ := judgeTakeover_only { s with notices := m, outbox := ob }
  exact ⟨_, cs, ps, qs, _, only⟩

theorem postNotice_free {f : NoticeFields} (ok : s.postRefusal f = none) (room : s.notices.table.length < 32) :
    postNotice f s = (done (flashClamped f)
      (u8 f.id.toNat ++ u8 (s.postedNotice f).state.code ++ minuteOrAbsent (s.postedNotice f).activation
        ++ minuteOrAbsent (s.postedNotice f).expiry ++ [0]), judgeTakeover (s.withPosted (s.postedNotice f))) := by
  unfold postNotice
  rw [ok]
  dsimp only
  rw [placeFor_room room]
  rfl

theorem addNotice_activation (n : Notice) (s : State) : (addNotice n s).notices.activation =
    if n.state = .pending then s.notices.activation else s.notices.activation ++ [n.id] := by
  unfold addNotice
  cases n.state <;> rfl

/-- Settles O35: one notice added, and the takeover table judged. -/
theorem postNoticeCreatesTheNotice : Obligations.PostNoticeCreatesTheNotice := by
  unfold Obligations.PostNoticeCreatesTheNotice
  intro t f s ht ok room
  have settled := ht.settled
  obtain ⟨len, hlen⟩ : ∃ len, len = (Wire.noticeBytes f).length + 2 := ⟨_, rfl⟩
  have stored := postedNotice_stored ok
  dsimp only at stored ⊢
  rw [← hlen]
  have body := postNotice_free (s := heard t len s) (by rw [heard_postRefusal t len settled]; exact ok)
    (by rw [heard_notices t len settled]; exact room)
  rw [heard_postedNotice t len settled] at body
  generalize s.postedNotice f = n at body stored
  obtain ⟨hid, hcls, hcontent, hscope, hlink, hactivation, hexpiry, hflash, hsystem, hstate, hinstant, hposition⟩ := stored
  let w := (heard t len s).withPosted n
  obtain ⟨cs, ps, qs, only⟩ := judgeTakeover_only w
  have new : ∀ x ∈ (heard t len s).notices.table, x.id ≠ n.id := by
    rw [heard_notices t len settled, hid]
    exact postRefusal_none_new ok
  have read : ∀ j, (settle (judgeTakeover w)).notice? j = if j = n.id then some n else s.notice? j := fun j =>
    (judgeTakeover_notice? w j).trans ((notice?_addNotice new j).trans (by rw [heard_notice? t len settled]))
  have code : u8 n.state.code = if (f.activation.elim false fun r =>
      decide ((s.cal.m : Int) < s.cal.d0 + 1440 * (r.day.toNat : Int) + (r.minute.toNat : Int))) then [0] else [1] := by
    rw [hstate]
    split <;> rfl
  rw [code] at body
  refine ⟨settle (judgeTakeover w), n, by subst hlen; exact request_ends ht _ 64 body, by rw [read, if_pos hid.symm], hid, hcls, hcontent,
    hscope, hlink, hactivation, hexpiry, hflash, hsystem, hstate, hinstant, hposition, fun i hi => by rw [read, if_neg (hid ▸ hi)], ?_, ?_⟩
  · refine (judgeTakeover_activation w).trans ((addNotice_activation n _).trans ?_)
    rw [heard_notices t len settled, hid, hstate]
    split <;> rfl
  · obtain ⟨j, q, c, beside, journal⟩ := settle_beside (heard_settled t len settled) (judgeTakeover w)
    rw [beside, journal (by rw [only]; exact (heard_settled t len settled).2), only]
    rfl

/-! ### The notice that an ALERT displaces -/

/-- The order of PENDING notices: the lower activation minute, then the lower id (R106). -/
def Notice.NotLater (x y : Notice) : Prop :=
  x.activation.getD 0 < y.activation.getD 0 ∨ (x.activation.getD 0 = y.activation.getD 0 ∧ x.id ≤ y.id)

theorem Notice.NotLater.trans {x y z : Notice} (h : x.NotLater y) (k : y.NotLater z) : x.NotLater z := by
  unfold Notice.NotLater at *
  omega

/-- Of notices of ascending ids the older one is found (R106). -/
theorem foldl_olderPending {l : List Notice} {x : Notice} (h : Rising ((x :: l).map Notice.id)) :
    ∃ r, l.foldl olderPending (some x) = some r ∧ r ∈ x :: l ∧ ∀ y ∈ x :: l, r.NotLater y := by
  induction l generalizing x with
  | nil => exact ⟨x, rfl, by simp, fun y hy => by
      rw [List.mem_singleton.1 hy]
      exact .inr ⟨rfl, le_refl _⟩⟩
  | cons y l ih =>
    simp only [List.map_cons, List.pairwise_cons] at h
    obtain ⟨hx, hy, hl⟩ := h
    have lt : x.id < y.id := hx y.id (by simp)
    rw [List.foldl_cons]
    unfold olderPending
    dsimp only
    split
    next later =>
      obtain ⟨r, e, mem, old⟩ := ih (x := y) (by simp only [List.map_cons, List.pairwise_cons]; exact ⟨hy, hl⟩)
      refine ⟨r, e, List.mem_cons_of_mem _ mem, fun z hz => ?_⟩
      rcases List.mem_cons.1 hz with rfl | hz
      · exact (old y (by simp)).trans (.inl later)
      · exact old z hz
    next earlier =>
      obtain ⟨r, e, mem, old⟩ := ih (x := x) (by
        simp only [List.map_cons, List.pairwise_cons]
        exact ⟨fun i hi => hx i (by simp [hi]), hl⟩)
      refine ⟨r, e, ?_, fun z hz => ?_⟩
      · rcases List.mem_cons.1 mem with rfl | mem
        · simp
        · simp [mem]
      · have near : x.NotLater y := by unfold Notice.NotLater; omega
        rcases List.mem_cons.1 hz with hz | hz
        · exact hz ▸ old x (by simp)
        · rcases List.mem_cons.1 hz with hz | hz
          · exact hz ▸ (old x (by simp)).trans near
          · exact old z (by simp [hz])

theorem foldl_min_le (l : List Notice) (c : Nat) :
    l.foldl (fun c n => min c n.cls.code) c ≤ c ∧ ∀ n ∈ l, l.foldl (fun c n => min c n.cls.code) c ≤ n.cls.code := by
  induction l generalizing c with
  | nil => simp
  | cons x l ih =>
    obtain ⟨h1, h2⟩ := ih (min c x.cls.code)
    rw [List.foldl_cons]
    refine ⟨by omega, fun n hn => ?_⟩
    rcases List.mem_cons.1 hn with rfl | hn
    · omega
    · exact h2 n hn

/-- What the displaced notice is: of the lowest class, an ACTIVE one before every PENDING one, the oldest activation (R106). -/
theorem displaceable_least {d : Notice} (hs : s.Noticed) (h : s.displaceable = some d) :
    d.cls ≠ .alert ∧ (∀ g ∈ s.notices.table, d.cls.code ≤ g.cls.code) ∧
      (∀ g ∈ s.notices.table, g.cls = d.cls → g.state = .active →
        d.state = .active ∧ s.notices.activation.idxOf d.id ≤ s.notices.activation.idxOf g.id) ∧
      (∀ g ∈ s.notices.table, g.cls = d.cls → g.state = .pending → d.state = .active ∨ d.NotLater g) := by
  unfold State.displaceable at h
  split at h
  · cases h
  next notAlert =>
    dsimp only at h
    have inClass : ∀ n, n ∈ s.notices.table.filter (fun n => n.cls.code = s.lowestClass) ↔
        n ∈ s.notices.table ∧ n.cls.code = s.lowestClass := fun n => by simp [List.mem_filter]
    have rising : Rising ((s.notices.table.filter fun n => n.cls.code = s.lowestClass).map Notice.id) := rising_filter Notice.id _ hs.table
    generalize s.notices.table.filter (fun n => n.cls.code = s.lowestClass) = pool at h inClass rising
    have least : d ∈ pool → d.cls ≠ .alert ∧ ∀ g ∈ s.notices.table, d.cls.code ≤ g.cls.code := fun hd => by
      have code := ((inClass d).1 hd).2
      refine ⟨fun e => notAlert ?_, fun g hg => code ▸ (foldl_min_le s.notices.table 3).2 g hg⟩
      rw [← code, e]
      rfl
    have mates : d ∈ pool → ∀ g ∈ s.notices.table, g.cls = d.cls → g ∈ pool := fun hd g hg e =>
      (inClass g).2 ⟨hg, by rw [e]; exact ((inClass d).1 hd).2⟩
    split at h
    next n hn =>
      obtain rfl := Option.some.inj h
      obtain ⟨before, i, after, split, found, none⟩ := List.findSome?_eq_some_iff.1 hn
      obtain ⟨hd, hid⟩ := findKey_mem Notice.id found
      have active : n.state = .active := by
        obtain ⟨m, hm, e, hst⟩ := (hs.active i).1 (by rw [split]; simp)
        have same := hs.listed.notice?_id hm
        rw [e, ← hid, hs.listed.notice?_id ((inClass n).1 hd).1] at same
        rw [Option.some.inj same]
        exact hst
      have absent : ∀ g ∈ pool, g.id ∉ before := fun g hg hb => by
        have := none g.id hb
        rw [findKey_of_mem Notice.id rising hg] at this
        cases this
      refine ⟨(least hd).1, (least hd).2, fun g hg e hst => ⟨active, ?_⟩, fun g _ _ _ => .inl active⟩
      rw [split, List.idxOf_append_of_notMem (absent n hd), List.idxOf_append_of_notMem (absent g (mates hd g hg e)), hid,
        List.idxOf_cons_self]
      omega
    next none =>
      have mem := fun g => @List.mem_filter _ (fun n : Notice => n.state == .pending) pool g
      have pend := rising_filter Notice.id (fun n : Notice => n.state == .pending) rising
      generalize pool.filter (fun n => n.state == .pending) = waiting at h mem pend
      cases waiting with
      | nil => cases h
      | cons x l =>
        obtain ⟨r, e, hr, old⟩ := foldl_olderPending pend
        have : some r = some d := e.symm.trans h
        obtain rfl := Option.some.inj this
        obtain ⟨hd, -⟩ := (mem r).1 hr
        have no_active : ∀ g ∈ pool, g.state ≠ .active := fun g hg hst => by
          have := List.findSome?_eq_none_iff.1 none g.id ((hs.active g.id).2 ⟨g, ((inClass g).1 hg).1, rfl, hst⟩)
          rw [findKey_of_mem Notice.id rising hg] at this
          cases this
        refine ⟨(least hd).1, (least hd).2, fun g hg e hst => absurd hst (no_active g (mates hd g hg e)), fun g hg e hst => .inr ?_⟩
        exact old g ((mem g).2 ⟨mates hd g hg e, by rw [hst]; rfl⟩)

/-- A notice displaced, and the ALERT that takes its place. -/
def State.displacing (s : State) (d : Nat) (n : Notice) : State :=
  (raise (.notice n.id) .noticeState d noticeDisplaced (freeNotices [d] s)).withPosted n

theorem displacing_frame (d : Nat) (n : Notice) (s : State) : ∃ m ob, s.displacing d n = { s with notices := m, outbox := ob } :=
  ⟨_, _, rfl⟩

theorem postNotice_displaces {f : NoticeFields} (ok : s.postRefusal f = none) (full : 32 ≤ s.notices.table.length) :
    ∃ d, d ∈ s.notices.table ∧ s.displaceable = some d ∧ noticeClass f.cls = .alert ∧
      postNotice f s = (done (flashClamped f)
        (u8 f.id.toNat ++ u8 (s.postedNotice f).state.code ++ minuteOrAbsent (s.postedNotice f).activation
          ++ minuteOrAbsent (s.postedNotice f).expiry ++ u8 d.id),
        judgeTakeover (s.displacing d.id (s.postedNotice f))) := by
  have place := postRefusal_none_place ok
  cases hp : s.placeFor (noticeClass f.cls) with
  | free =>
    have := placeFor_free hp
    omega
  | full => exact absurd hp place
  | displaced d =>
    obtain ⟨mem, least, alert⟩ := placeFor_displaced hp
    refine ⟨d, mem, least, alert, ?_⟩
    unfold postNotice
    rw [ok]
    dsimp only
    rw [show (s.postedNotice f).cls = noticeClass f.cls from rfl, hp]
    rfl

/-- Settles O36: the displaced notice is freed before the ALERT is added, both records of one source. -/
theorem alertDisplacesTheLeastNotice : Obligations.AlertDisplacesTheLeastNotice := by
  unfold Obligations.AlertDisplacesTheLeastNotice
  intro t f s ht hs ok full
  have settled := ht.settled
  obtain ⟨len, hlen⟩ : ∃ len, len = (Wire.noticeBytes f).length + 2 := ⟨_, rfl⟩
  dsimp only
  rw [← hlen]
  have notices := heard_notices t len settled
  obtain ⟨ho, hj⟩ := heard_settled t len settled
  obtain ⟨d, mem, least, alert, body⟩ := postNotice_displaces (s := heard t len s) (f := f)
    (by rw [heard_postRefusal t len settled]; exact ok) (by rw [notices]; exact full)
  obtain ⟨notAlert, lowest, active, pending⟩ := displaceable_least (hs.same notices) least
  rw [notices] at mem lowest active pending
  rw [heard_postedNotice t len settled] at body
  have hid : (s.postedNotice f).id = f.id.toNat := rfl
  have hcls : (s.postedNotice f).cls = .alert := alert
  generalize s.postedNotice f = n at body hid hcls
  have new : ∀ x ∈ s.notices.table, x.id ≠ f.id.toNat := postRefusal_none_new ok
  let v := raise (.notice n.id) .noticeState d.id noticeDisplaced (freeNotices [d.id] (heard t len s))
  let w := (heard t len s).displacing d.id n
  have freed : ∀ j, v.notice? j = if j = d.id then none else s.notice? j := fun j =>
    (notice?_freeNotices d.id (heard t len s) j).trans (by rw [heard_notice? t len settled])
  have read : ∀ j, (settle (judgeTakeover w)).notice? j = if j = n.id then some n else v.notice? j := fun j =>
    (judgeTakeover_notice? w j).trans (notice?_addNotice (s := v) (fun x hx => by
      rw [hid]
      refine new x ?_
      rw [← notices]
      exact List.mem_of_mem_filter hx) j)
  have other : d.id ≠ f.id.toNat := new d mem
  have outbox : (judgeTakeover w).outbox = [(.notice f.id.toNat, s.record .noticeState d.id noticeDisplaced),
      (.notice f.id.toNat, s.record .noticeState f.id.toNat n.state.code)] := by
    obtain ⟨cs, ps, qs, only⟩ := judgeTakeover_only w
    rw [only, ← heard_record t len settled, ← heard_record t len settled, ← Notice.postedDetail_eq, ← hid]
    show ((heard t len s).outbox ++ _) ++ _ = _
    rw [ho]
    rfl
  obtain ⟨m, cs, ps, qs, ob, frame⟩ := judgeTakeover_frame (displacing_frame d.id n (heard t len s))
  have frame : judgeTakeover w = _ := frame
  have body : postNotice f (heard t len s) = (_, judgeTakeover w) := body
  clear_value w v
  have box : (judgeTakeover w).journalBox = [] := by rw [frame]; exact hj
  have ended := settle_source (s := judgeTakeover w) (g := .notice f.id.toNat) (by rw [outbox]; simp) box
  obtain ⟨j, q, c, beside, journal⟩ := settle_beside (heard_settled t len settled) (judgeTakeover w)
  refine ⟨settle (judgeTakeover w), d, n, by subst hlen; exact request_ends ht _ 64 body, by rw [read, if_pos hid.symm], hcls, mem, notAlert,
    by rw [read, if_neg (hid ▸ other), freed, if_pos rfl], lowest, active, pending,
    fun i hi hid' => by rw [read, if_neg (hid ▸ hi), freed, if_neg hid'], ?_, ?_⟩
  · rw [ended, outbox, frame]
    show offerAll (heard t len s).ports (offerAll (heard t len s).ports (heard t len s).queues _) _ = _
    rw [offerAll_role (heard_role t len settled), offerAll_role (heard_role t len settled), heard_unsold len ht (by decide)]
    rfl
  · rw [beside, journal box, frame]

end Sys2Proof.Machine
end

section
/-! PROOFS about the requests that change a carousel: PUT ENTRY and SET CAROUSEL (R121, R123). -/

namespace Sys2Proof.Machine

variable {s : State}

/-! ### PUT ENTRY -/

/-- Where a reference into a ring stands once an entry has been placed (R121). -/
def Placement.follow : Placement → Nat → Nat → Option Nat
  | .append, _ => some
  | .insert, p => refInserted p
  | .replace, p => refReplaced p

/-- A carousel with an entry placed in its ring (R121). -/
def Carousel.placed (how : Placement) (p : Nat) (e : Entry) (c : Carousel) : Carousel :=
  match how with
  | .append => { c with ring := c.ring ++ [e] }
  | .insert => { c with ring := c.ring.insertIdx p e, cursor := if p < c.cursor then c.cursor + 1 else c.cursor }
  | .replace => { c with ring := c.ring.set p e }

theorem Carousel.mapRef_some (c : Carousel) : c.mapRef some = c := by
  unfold Carousel.mapRef
  cases h : c.round <;> simp <;> cases c <;> simp_all

theorem Play.mapRef_some (k : Nat) (r : Play) : r.mapRef k some = r := by
  unfold Play.mapRef
  simp

variable {k : Nat}

theorem placeEntry_carousel_same (hk : 1 ≤ k) (hs : k ≤ s.carousels.length) (how : Placement) (p : Nat) (e : Entry) :
    (placeEntry how k p e s).carousel k = ((s.carousel k).placed how p e).mapRef (how.follow p) := by
  cases how with
  | append =>
    refine (State.carousel_modCarousel_same hk hs (Carousel.placed .append p e)).trans ?_
    exact (Carousel.mapRef_some _).symm
  | insert =>
    have hs' : k ≤ (s.modCarousel k (Carousel.placed .insert p e)).carousels.length := by simpa using hs
    exact (modRefs_carousel_same hk hs' _).trans (by rw [State.carousel_modCarousel_same hk hs]; rfl)
  | replace =>
    have hs' : k ≤ (s.modCarousel k (Carousel.placed .replace p e)).carousels.length := by simpa using hs
    exact (modRefs_carousel_same hk hs' _).trans (by rw [State.carousel_modCarousel_same hk hs]; rfl)

theorem placeEntry_carousel_other {i : Nat} (h : i ≠ k) (how : Placement) (p : Nat) (e : Entry) (s : State) :
    (placeEntry how k p e s).carousel i = s.carousel i := by
  cases how with
  | append => exact State.carousel_modCarousel_other h (Carousel.placed .append p e) s
  | insert => exact (modRefs_carousel_other h _ _).trans (State.carousel_modCarousel_other h (Carousel.placed .insert p e) s)
  | replace => exact (modRefs_carousel_other h _ _).trans (State.carousel_modCarousel_other h (Carousel.placed .replace p e) s)

theorem placeEntry_play? (how : Placement) (p : Nat) (e : Entry) (s : State) (i : Nat) :
    (placeEntry how k p e s).play? i = (s.play? i).map (Play.mapRef k (how.follow p)) := by
  cases how with
  | append =>
    show s.play? i = (s.play? i).map (Play.mapRef k some)
    rw [show Play.mapRef k some = id from funext (Play.mapRef_some k), Option.map_id]
    rfl
  | insert => exact modRefs_play? k _ _ i
  | replace => exact modRefs_play? k _ _ i

theorem placeEntry_frame (how : Placement) (p : Nat) (e : Entry) (s : State) :
    ∃ cs ps, placeEntry how k p e s = { s with carousels := cs, plays := ps } := by
  cases how <;> exact ⟨_, _, rfl⟩

/-- What a PUT ENTRY that is taken says of its fields (R121). -/
theorem entryRefusal_none {f : EntryFields} (h : s.entryRefusal f = none) :
    1 ≤ f.carousel.toNat ∧ f.carousel.toNat ≤ 8 ∧
      ((f.placement.toNat = 0 ∧ placementOf f.placement = some .append) ∨
       (f.placement.toNat = 1 ∧ placementOf f.placement = some .insert ∧
        f.position.toNat ≤ (s.carousel f.carousel.toNat).ring.length) ∨
       (f.placement.toNat = 2 ∧ placementOf f.placement = some .replace ∧
        f.position.toNat < (s.carousel f.carousel.toNat).ring.length)) := by
  unfold State.entryRefusal at h
  dsimp only at h
  split at h
  · cases h
  next form =>
    split at h
    · cases h
    next known =>
      simp only [State.entryMalformed, Bool.or_eq_true, not_or, carouselBad_iff] at form
      obtain ⟨⟨⟨⟨⟨⟨⟨-, k0, k8⟩, how⟩, -⟩, -⟩, -⟩, -⟩, room⟩ := form
      refine ⟨by omega, by omega, ?_⟩
      unfold placementOf at *
      by_cases h0 : f.placement.toNat = 0
      · exact .inl ⟨h0, by simp [h0]⟩
      · by_cases h1 : f.placement.toNat = 1
        · refine .inr (.inl ⟨h1, by simp [h1], ?_⟩)
          simpa [h1] using room
        · by_cases h2 : f.placement.toNat = 2
          · refine .inr (.inr ⟨h2, by simp [h2], ?_⟩)
            simpa [h2] using known
          · simp [h0, h1, h2] at how

theorem refInserted_eq (p i : Nat) : refInserted p i = if p ≤ i then some (i + 1) else some i := by
  unfold refInserted
  split <;> rfl

theorem heard_entryRefusal (t : Txn) (n : Nat) (h : s.Settled) (f : EntryFields) : (heard t n s).entryRefusal f = s.entryRefusal f := by
  rw [heard_eq t n h]
  rfl

/-- PUT ENTRY carried out (R121). -/
theorem putEntry_done {f : EntryFields} {how : Placement} (ok : s.entryRefusal f = none) (hhow : placementOf f.placement = some how) :
    putEntry f s = (done (entryLength f != f.length.toNat)
      (u8 (placedAt how (s.carousel f.carousel.toNat).ring.length f.position.toNat)
        ++ u8 ((placeEntry how f.carousel.toNat f.position.toNat (newEntry f) s).carousel f.carousel.toNat).ring.length),
      placeEntry how f.carousel.toNat f.position.toNat (newEntry f) s) := by
  unfold putEntry
  rw [ok, hhow]

/-- Settles O39: the ring, the cursor and the references move as `Carousel.placed` and `Placement.follow` say. -/
theorem putEntryPlacesTheEntry : Obligations.PutEntryPlacesTheEntry := by
  unfold Obligations.PutEntryPlacesTheEntry
  intro t f s ht hs ok
  have settled := ht.settled
  obtain ⟨n, hn⟩ : ∃ n, n = (Wire.entryBytes f).length + 2 := ⟨_, rfl⟩
  dsimp only
  rw [← hn]
  obtain ⟨h1, h8, kinds⟩ := entryRefusal_none ok
  have clamped : (entryLength f != f.length.toNat) = decide (f.length.toNat < 5 ∨ 600 < f.length.toNat) := clamp_ne (by omega) _
  have carousel := heard_read_carousel t n settled
  have size : f.carousel.toNat ≤ (heard t n s).carousels.length := by
    rw [heard_carousels t n settled, hs.carousels]
    exact h8
  have placement : ∀ c : Nat, c < 256 → (f.placement = BitVec.ofNat 8 c ↔ f.placement.toNat = c) := fun c hc => by
    rw [← BitVec.toNat_inj, BitVec.toNat_ofNat, Nat.mod_eq_of_lt (by exact hc)]
  obtain ⟨how, hhow⟩ : ∃ how, placementOf f.placement = some how := by
    rcases kinds with ⟨-, e⟩ | ⟨-, e, -⟩ | ⟨-, e, -⟩ <;> exact ⟨_, e⟩
  have body := putEntry_done (s := heard t n s) (by rw [heard_entryRefusal t n settled]; exact ok) hhow
  have same := placeEntry_carousel_same h1 size how f.position.toNat (newEntry f)
  obtain ⟨cs, ps, frame⟩ := placeEntry_frame (k := f.carousel.toNat) how f.position.toNat (newEntry f) (heard t n s)
  have quiet : (placeEntry how f.carousel.toNat f.position.toNat (newEntry f) (heard t n s)).Settled := by
    rw [frame]
    exact heard_settled t n settled
  rw [clamped] at body
  rw [carousel] at same body
  have run : exec (.putEntry t f) s = .next (replied t 80 (done (decide (f.length.toNat < 5 ∨ 600 < f.length.toNat))
      (u8 (placedAt how (s.carousel f.carousel.toNat).ring.length f.position.toNat)
        ++ u8 ((placeEntry how f.carousel.toNat f.position.toNat (newEntry f) (heard t n s)).carousel f.carousel.toNat).ring.length))
      (placeEntry how f.carousel.toNat f.position.toNat (newEntry f) (heard t n s))) := by
    subst hn
    exact request_quiet ht _ 80 body quiet
  have p0 : f.placement = 0 ↔ f.placement.toNat = 0 := placement 0 (by omega)
  have p1 : f.placement = 1 ↔ f.placement.toNat = 1 := placement 1 (by omega)
  have p2 : f.placement = 2 ↔ f.placement.toNat = 2 := placement 2 (by omega)
  have follow : how.follow f.position.toNat = fun i =>
      if f.placement = 1 then (if f.position.toNat ≤ i then some (i + 1) else some i)
      else if f.placement = 2 then (if i = f.position.toNat then none else some i)
      else some i := by
    funext i
    simp only [p1, p2]
    rcases kinds with ⟨v, e⟩ | ⟨v, e, -⟩ | ⟨v, e, -⟩ <;> obtain rfl := Option.some.inj (hhow.symm.trans e) <;> rw [v]
    · rfl
    · exact refInserted_eq f.position.toNat i
    · rfl
  have count : (((s.carousel f.carousel.toNat).placed how f.position.toNat (newEntry f)).mapRef (how.follow f.position.toNat)).ring.length =
      if f.placement = 2 then (s.carousel f.carousel.toNat).ring.length else (s.carousel f.carousel.toNat).ring.length + 1 := by
    simp only [p2]
    rcases kinds with ⟨v, e⟩ | ⟨v, e, le⟩ | ⟨v, e, lt⟩ <;> obtain rfl := Option.some.inj (hhow.symm.trans e) <;> rw [v]
    · exact List.length_append
    · exact List.length_insertIdx_of_le_length le _
    · exact List.length_set
  refine ⟨_, _, _, run, ?_, ?_, ?_, fun i hi => ?_, fun i => ?_, ?_⟩
  · simp only [p0]
    rcases kinds with ⟨v, e⟩ | ⟨v, e, -⟩ | ⟨v, e, -⟩ <;> obtain rfl := Option.some.inj (hhow.symm.trans e) <;> rw [v] <;> rfl
  · rw [same, count]
  · rw [same]
    unfold Carousel.mapRef
    rw [follow]
    simp only [p0, p1]
    rcases kinds with ⟨v, e⟩ | ⟨v, e, -⟩ | ⟨v, e, -⟩ <;> obtain rfl := Option.some.inj (hhow.symm.trans e) <;> rw [v] <;>
      simp [Carousel.placed] <;> rfl
  · rw [placeEntry_carousel_other hi, carousel]
  · rw [placeEntry_play?, heard_read_play? t n settled, follow]
    rfl
  · rw [frame]

/-! ### SET CAROUSEL -/

/-- Whether panel `q` has a play of carousel `k`. -/
def State.playsFrom (s : State) (k q : Nat) : Bool := (s.play? q).any fun r => r.carousel == k

theorem State.playsFrom_iff {q : Nat} : s.playsFrom k q = true ↔ ∃ r, s.play? q = some r ∧ r.carousel = k := by
  simp [State.playsFrom, Option.any_eq_true]

theorem State.play?_out (hs : s.plays.length = 12) {q : Nat} (h : s.play? q ≠ none) : 1 ≤ q ∧ q ≤ 12 := by
  unfold State.play? slot at h
  cases q with
  | zero => exact absurd rfl h
  | succ i =>
    by_contra hq
    exact h (List.getD_eq_default _ _ (by omega))

theorem endModePlay_eq (k p : Nat) (s : State) : endModePlay k p s = if s.playsFrom k p then clearZone p (s.setPlay p none) else s := by
  unfold endModePlay State.playsFrom
  cases s.play? p with
  | none => rfl
  | some r => simp

theorem endModePlay_read (k p q : Nat) (s : State) :
    (endModePlay k p s).play? q = (if q = p ∧ s.playsFrom k q then none else s.play? q) ∧
    (endModePlay k p s).panel q = if q = p ∧ s.playsFrom k q then { s.panel q with zone := .idle } else s.panel q := by
  have hpanel : (clearZone p (s.setPlay p none)).panel q = if q = p then { s.panel p with zone := .idle } else s.panel q :=
    State.panel_modPanel p q _ (s.setPlay p none) rfl
  have hplay : (clearZone p (s.setPlay p none)).play? q = if q = p then none else s.play? q := State.play?_setPlay_none p q s
  rw [endModePlay_eq]
  by_cases e : q = p
  · subst e
    by_cases h : s.playsFrom k q = true
    · rw [if_pos h, hpanel, hplay]
      simp [h]
    · rw [if_neg h]
      simp [h]
  · split
    · rw [hpanel, hplay]
      simp [e]
    · simp [e]

theorem endModePlays_read (k : Nat) (l : List Nat) (q : Nat) (s : State) :
    (l.foldl (fun t p => endModePlay k p t) s).play? q = (if q ∈ l ∧ s.playsFrom k q then none else s.play? q) ∧
    (l.foldl (fun t p => endModePlay k p t) s).panel q =
      if q ∈ l ∧ s.playsFrom k q then { s.panel q with zone := .idle } else s.panel q := by
  induction l generalizing s with
  | nil => simp
  | cons p l ih =>
    obtain ⟨play, panel⟩ := ih (endModePlay k p s)
    obtain ⟨play1, panel1⟩ := endModePlay_read k p q s
    have from1 : (endModePlay k p s).playsFrom k q = if q = p ∧ s.playsFrom k q then false else s.playsFrom k q := by
      unfold State.playsFrom at *
      rw [play1]
      split <;> rfl
    rw [List.foldl_cons, play, panel, play1, panel1, from1]
    by_cases e : q = p
    · subst e
      by_cases h : s.playsFrom k q = true <;> simp [h]
    · simp [e]

theorem endModePlays_frame (k : Nat) (l : List Nat) (s : State) :
    ∃ ps qs, l.foldl (fun t p => endModePlay k p t) s = { s with plays := ps, panels := qs } := by
  induction l generalizing s with
  | nil => exact ⟨s.plays, s.panels, rfl⟩
  | cons p l ih =>
    obtain ⟨ps, qs, e⟩ := ih (endModePlay k p s)
    refine ⟨ps, qs, ?_⟩
    rw [List.foldl_cons, e, endModePlay_eq]
    split <;> rfl

theorem modeOf_eq (b : Byte) : modeOf b = if b = 0 then .spread else .lockstep := by
  unfold modeOf
  exact if_congr (BitVec.toNat_inj (y := (0 : Byte))) rfl rfl

/-- The settings a SET CAROUSEL leaves (R123). -/
theorem Carousel.withSettings_eq (f : CarouselFields) (c : Carousel) :
    c.withSettings f = { c with
      mode := f.mode.elim c.mode fun m => if m = 0 then .spread else .lockstep
      fallback := f.fallback.elim c.fallback fun x => if x = 0 then none else some x.toNat
      usable := f.fallback.elim c.usable fun x => decide (x ≠ 0)
      fallbackLength := f.length.elim c.fallbackLength fun x => max 5 (min 600 x.toNat)
      horizon := f.horizon.elim c.horizon fun x => max 30 (min 720 x.toNat) } := by
  have zero : ∀ x : Half, x = 0 ↔ x.toNat = 0 := fun x => (BitVec.toNat_inj (y := (0 : Half))).symm
  unfold Carousel.withSettings
  rw [show modeOf = fun m => if m = 0 then Mode.spread else .lockstep from funext modeOf_eq]
  cases f.fallback with
  | none => rfl
  | some x =>
    simp only [Option.elim_some, zero, ne_eq, decide_not]
    rfl

theorem carouselClamped_iff (f : CarouselFields) : carouselClamped f = true ↔
    (∃ x, f.length = some x ∧ (x.toNat < 5 ∨ 600 < x.toNat)) ∨ ∃ x, f.horizon = some x ∧ (x.toNat < 30 ∨ 720 < x.toNat) := by
  have test : ∀ {lo hi : Nat} (_ : lo ≤ hi) (o : Option Half),
      ifPresent (fun x => clamp lo hi x.toNat != x.toNat) o = true ↔ ∃ x, o = some x ∧ (x.toNat < lo ∨ hi < x.toNat) := by
    intro lo hi h o
    cases o with
    | none => simp [ifPresent]
    | some x =>
      show (max lo (min hi x.toNat) != x.toNat) = true ↔ _
      rw [clamp_ne h]
      simp
  unfold carouselClamped
  rw [Bool.or_eq_true, test (by omega), test (by omega)]

theorem carouselMalformed_false {f : CarouselFields} (spare : f.spare = 0) (h1 : 1 ≤ f.carousel.toNat) (h8 : f.carousel.toNat ≤ 8)
    (mode : ∀ m, f.mode = some m → m.toNat ≤ 1) (fallback : ∀ c, f.fallback = some c → c.toNat ≤ 4095) : carouselMalformed f = false := by
  have bad : carouselBad f.carousel.toNat = false := by
    rw [← Bool.not_eq_true, carouselBad_iff]
    omega
  have within : ∀ {w k : Nat} (o : Option (BitVec w)), (∀ x, o = some x → x.toNat ≤ k) → ifPresent (fun x => decide (k < x.toNat)) o = false := by
    intro w k o h
    cases o with
    | none => rfl
    | some x => exact decide_eq_false (by have := h x rfl; omega)
  unfold carouselMalformed
  rw [spare, bad, within f.mode mode, within f.fallback fallback]
  rfl

/-- What SET CAROUSEL does to the board (R123). -/
def carouselSet (f : CarouselFields) (s : State) : State :=
  if ((s.carousel f.carousel.toNat).withSettings f).mode = (s.carousel f.carousel.toNat).mode
  then s.modCarousel f.carousel.toNat (Carousel.withSettings f)
  else endMode f.carousel.toNat (s.modCarousel f.carousel.toNat (Carousel.withSettings f))

/-- SET CAROUSEL carried out (R123). -/
theorem setCarousel_done {f : CarouselFields} (ok : carouselMalformed f = false) : setCarousel f s = (done (carouselClamped f)
    (u8 ((s.carousel f.carousel.toNat).withSettings f).mode.code ++ u16 (((s.carousel f.carousel.toNat).withSettings f).fallback.getD 0)
      ++ u16 ((s.carousel f.carousel.toNat).withSettings f).fallbackLength ++ mark ((s.carousel f.carousel.toNat).withSettings f).usable
      ++ u16 ((s.carousel f.carousel.toNat).withSettings f).horizon), carouselSet f s) := by
  unfold setCarousel
  rw [ok]
  rfl

theorem carouselSet_frame (f : CarouselFields) (s : State) :
    ∃ cs ps qs, carouselSet f s = { s with carousels := cs, plays := ps, panels := qs } := by
  unfold carouselSet
  split
  · exact ⟨_, s.plays, s.panels, rfl⟩
  · obtain ⟨ps, qs, e⟩ := endModePlays_frame f.carousel.toNat panelNumbers
      ((s.modCarousel f.carousel.toNat (Carousel.withSettings f)).modCarousel f.carousel.toNat fun c => { c with round := none })
    exact ⟨_, ps, qs, e⟩

theorem carouselSet_other (f : CarouselFields) (s : State) {i : Nat} (h : i ≠ f.carousel.toNat) : (carouselSet f s).carousel i = s.carousel i := by
  unfold carouselSet
  split
  · exact State.carousel_modCarousel_other h _ s
  · obtain ⟨ps, qs, e⟩ := endModePlays_frame f.carousel.toNat panelNumbers
      ((s.modCarousel f.carousel.toNat (Carousel.withSettings f)).modCarousel f.carousel.toNat fun c => { c with round := none })
    unfold endMode
    rw [e]
    exact (State.carousel_modCarousel_other h _ _).trans (State.carousel_modCarousel_other h _ s)

theorem carouselSet_same {f : CarouselFields} (h1 : 1 ≤ f.carousel.toNat) (hs : f.carousel.toNat ≤ s.carousels.length) :
    (carouselSet f s).carousel f.carousel.toNat = { (s.carousel f.carousel.toNat).withSettings f with
      round := if ((s.carousel f.carousel.toNat).withSettings f).mode = (s.carousel f.carousel.toNat).mode
        then (s.carousel f.carousel.toNat).round else none } := by
  have stored := State.carousel_modCarousel_same h1 hs (Carousel.withSettings f)
  unfold carouselSet
  split
  · exact stored
  · obtain ⟨ps, qs, e⟩ := endModePlays_frame f.carousel.toNat panelNumbers
      ((s.modCarousel f.carousel.toNat (Carousel.withSettings f)).modCarousel f.carousel.toNat fun c => { c with round := none })
    unfold endMode
    rw [e]
    refine (State.carousel_modCarousel_same h1 (by simpa using hs) fun c => { c with round := none }).trans ?_
    rw [stored]

theorem carouselSet_zones (f : CarouselFields) (hs : s.plays.length = 12) (q : Nat) :
    (((s.carousel f.carousel.toNat).withSettings f).mode ≠ (s.carousel f.carousel.toNat).mode → s.playsFrom f.carousel.toNat q = true →
      (carouselSet f s).play? q = none ∧ (carouselSet f s).panel q = { s.panel q with zone := .idle }) ∧
    (((s.carousel f.carousel.toNat).withSettings f).mode = (s.carousel f.carousel.toNat).mode ∨ s.playsFrom f.carousel.toNat q = false →
      (carouselSet f s).play? q = s.play? q ∧ (carouselSet f s).panel q = s.panel q) := by
  unfold carouselSet
  obtain ⟨play, panel⟩ := endModePlays_read f.carousel.toNat panelNumbers q
    ((s.modCarousel f.carousel.toNat (Carousel.withSettings f)).modCarousel f.carousel.toNat fun c => { c with round := none })
  constructor
  · intro changed plays
    obtain ⟨r, hr, -⟩ := State.playsFrom_iff.mp plays
    have range := State.play?_out hs (q := q) (by rw [hr]; simp)
    have member : q ∈ panelNumbers := by
      simp only [panelNumbers, List.mem_cons, List.not_mem_nil, or_false]
      omega
    rw [if_neg changed]
    rw [if_pos ⟨member, plays⟩] at play panel
    exact ⟨play, panel⟩
  · intro same
    split
    · exact ⟨rfl, rfl⟩
    next changed =>
      have none : s.playsFrom f.carousel.toNat q = false := same.resolve_left changed
      rw [if_neg (fun h => by have := h.2.symm.trans none; cases this)] at play panel
      exact ⟨play, panel⟩

/-- Settles O41: the settings are `Carousel.withSettings`, and only a change of mode ends the plays of the carousel. -/
theorem setCarouselStoresTheSettings : Obligations.SetCarouselStoresTheSettings := by
  unfold Obligations.SetCarouselStoresTheSettings
  intro t f s ht hs spare h1 h8 mode fallback
  have settled := ht.settled
  obtain ⟨n, hn⟩ : ∃ n, n = (Wire.carouselBytes f).length + 2 := ⟨_, rfl⟩
  have carousel := heard_read_carousel t n settled
  have play := heard_read_play? t n settled
  have panels := heard_panels t n settled
  have body := setCarousel_done (s := heard t n s) (carouselMalformed_false spare h1 h8 mode fallback)
  obtain ⟨cs, ps, qs, frame⟩ := carouselSet_frame f (heard t n s)
  have quiet : (carouselSet f (heard t n s)).Settled := by
    rw [frame]
    exact heard_settled t n settled
  have size : f.carousel.toNat ≤ (heard t n s).carousels.length := by
    rw [heard_carousels t n settled, hs.carousels]
    exact h8
  have same := carouselSet_same h1 size
  have zones := carouselSet_zones (s := heard t n s) f (by rw [heard_plays t n settled]; exact hs.plays)
  have from_heard : ∀ q, (heard t n s).playsFrom f.carousel.toNat q = s.playsFrom f.carousel.toNat q := fun q => by
    unfold State.playsFrom
    rw [play]
  have panel : ∀ q, (heard t n s).panel q = s.panel q := fun q => by
    unfold State.panel
    rw [panels]
  simp only [carousel, play, from_heard, panel] at body same zones
  rw [Carousel.withSettings_eq] at body same zones
  refine ⟨carouselSet f (heard t n s), carouselClamped f, ?_, carouselClamped_iff f, same, fun i hi => ?_, fun p r changed hr hk => ?_,
    fun p h => ?_, ?_⟩
  · subst hn
    exact request_quiet ht _ 82 body quiet
  · rw [carouselSet_other f _ hi, carousel]
  · exact (zones p).1 changed (State.playsFrom_iff.mpr ⟨r, hr, hk⟩)
  · refine (zones p).2 (h.imp_right fun none => ?_)
    rw [← Bool.not_eq_true, State.playsFrom_iff]
    rintro ⟨r, hr, hk⟩
    exact none r hr hk
  · rw [← hn, frame]


end Sys2Proof.Machine
end

section
/-! PROOFS about the links: the frame times of a missing head (R158). -/

namespace Sys2Proof.Machine

variable {s : State} {p : Nat}

/-! ### Reading a link -/

/-- A change of an entry is what it makes of that entry. -/
theorem modSlot_congr {α : Type} (d : α) {f g : α → α} {l : List α} {n : Nat} (h : f (slot d l n) = g (slot d l n)) :
    modSlot f l n = modSlot g l n := by
  cases n with
  | zero => rfl
  | succ n =>
    refine List.ext_getElem? fun i => ?_
    by_cases e : n = i
    · subst e
      cases hn : l[n]? with
      | none => simp [modSlot, hn]
      | some x =>
        have read : slot d l (n + 1) = x := by simp [slot, List.getD_eq_getElem?_getD, hn]
        rw [read] at h
        simp [modSlot, hn, h]
    · simp [modSlot, e]

theorem modLink_congr {f g : LinkContext → LinkContext} (h : f (s.link p) = g (s.link p)) : s.modLink p f = s.modLink p g := by
  unfold State.modLink
  rw [modSlot_congr LinkContext.atReset (f := f) (g := g) h]

@[simp] theorem modLink_modLink (p : Nat) (f g : LinkContext → LinkContext) (s : State) :
    (s.modLink p f).modLink p g = s.modLink p fun l => g (f l) := by
  unfold State.modLink
  rw [modSlot_modSlot]

/-- A link that is not as a reset leaves it stands in the table. -/
theorem State.link_in (h : s.link p ≠ LinkContext.atReset) : 1 ≤ p ∧ p ≤ s.links.length := by
  unfold State.link slot at h
  cases p with
  | zero => exact absurd rfl h
  | succ i =>
    by_contra hp
    exact h (List.getD_eq_default _ _ (by omega))

theorem State.link_modLink (h : 1 ≤ p ∧ p ≤ s.links.length) (f : LinkContext → LinkContext) : (s.modLink p f).link p = f (s.link p) :=
  slot_modSlot_same _ f s.links p h.1 h.2

theorem State.link_modLink_other {q : Nat} (h : q ≠ p) (f : LinkContext → LinkContext) (s : State) : (s.modLink p f).link q = s.link q :=
  slot_modSlot_other _ f s.links p q h

/-! ### The frame time of a missing head -/

/-- A frame time of a link that has one. -/
theorem frameTime_at {n : Nat} (h : (s.link p).nextFrame = some n) :
    frameTime p s = settle (frameAction n p ((reach n s).modLink p fun l => { l with nextFrame := some (n + s.framePeriod) })) := by
  unfold frameTime
  rw [h]

theorem sendIdentify_eq (p : Nat) (s : State) : sendIdentify p s = s.modLink p fun l =>
    { l with window := some .identify, lastBlank := some false, lastFrame := some (.identify (s.header p false)) } := rfl

theorem frameAction_seeking {n : Nat} (h : (s.link p).head = .seeking) : frameAction n p s = sendIdentify p s := by
  unfold frameAction
  rw [h]

theorem frameAction_lost {n : Nat} (h : (s.link p).head = .lost) : frameAction n p s =
    if 8 ≤ (s.link p).lostCount + 1 then sendIdentify p (s.modLink p fun l => { l with lostCount := 0 })
    else s.modLink p fun l => { l with lostCount := l.lostCount + 1 } := by
  unfold frameAction
  rw [h]

/-- Settles O46: the action of `frameAction` by the head state, under the two changes of the link that come with it. -/
theorem frameTimeCallsForTheHead : Obligations.FrameTimeCallsForTheHead := by
  unfold Obligations.FrameTimeCallsForTheHead
  intro c p n s hs next
  obtain ⟨q, hq⟩ : ∃ q, q = panelOf p := ⟨_, rfl⟩
  dsimp only
  rw [← hq] at next ⊢
  have place := State.link_in (s := s) (p := q) (by intro e; rw [e] at next; cases next)
  have read : ((reach n s).modLink q fun l => { l with nextFrame := some (n + s.framePeriod) }).link q =
      { s.link q with nextFrame := some (n + s.framePeriod) } := State.link_modLink (s := reach n s) place _
  have settled : ∀ f, settle ((reach n s).modLink q f) = (reach n s).modLink q f := fun f => settle_settled hs
  have time : exec (.frameTime p) s = .next (frameTime q s) := by rw [hq]; rfl
  refine ⟨fun seeking hc => ?_, fun lost few hc => ?_, fun lost full hc => ?_⟩
  · rw [hc, time, frameTime_at next, frameAction_seeking (by rw [read]; exact seeking), sendIdentify_eq, modLink_modLink, settled]
    rfl
  · rw [hc, time, frameTime_at next, frameAction_lost (by rw [read]; exact lost), if_neg (by rw [read]; dsimp only; omega), modLink_modLink,
      settled]
    rfl
  · have run : exec c s = .next (frameTime q s) := by
      rcases hc with hc | hc
      · rw [hc, time]
      · have due : (s.link (panelOf p)).head = .lost ∧ 7 ≤ (s.link (panelOf p)).lostCount := by
          rw [← hq]
          exact ⟨lost, by omega⟩
        rw [hc, hq]
        exact congrArg Host.Outcome.next (if_pos due)
    rw [run, frameTime_at next, frameAction_lost (by rw [read]; exact lost), if_pos (by rw [read]; dsimp only; omega), sendIdentify_eq,
      modLink_modLink, modLink_modLink, settled]
    rfl

end Sys2Proof.Machine
end

section
/-! PROOFS about the end of a play: the zone deadline (R150). -/

namespace Sys2Proof.Machine

variable {s : State} {p : Nat}

/-! ### The end of a play -/

/-- The end of a play in a busy zone (R149, R150, R151). -/
theorem endPlay_busy (h : (s.panel p).zone.busy = true) (o : PlayOutcome) : endPlay p o s = handOutcome p o (clearZone p s) := by
  unfold endPlay
  cases hz : (s.panel p).zone with
  | idle =>
    rw [hz] at h
    cases h
  | cued q d => rfl
  | playing q d => rfl

/-- What the outcome of a play does beyond the end of its record (R132, R133, R150). -/
def PlayOutcome.effect (o : PlayOutcome) (p : Nat) (r : Play) (s : State) : State :=
  match o with
  | .completed => s
  | .stop => s
  | .fault =>
    raise (.play p) .clipFault r.carousel (r.clip + 4096 * ((s.carousel r.carousel).afterFault r).2)
      (s.modCarousel r.carousel fun _ => ((s.carousel r.carousel).afterFault r).1)
  | .cueTimeout => raise (.play p) .clipTimeout p r.clip s
  | .playTimeout => raise (.play p) .clipTimeout p (r.clip + 4096) s

/-- A panel's play leaves its round, where it has one (R131). -/
def leaves (p : Nat) (r : Play) (s : State) : State :=
  if r.roundMark then s.modCarousel r.carousel (Carousel.leaveRound p) else s

theorem handOutcome_play {r : Play} (h : s.play? p = some r) (o : PlayOutcome) :
    handOutcome p o s = leaves p r (o.effect p r (s.setPlay p none)) := by
  unfold handOutcome
  rw [h]
  cases o <;> rfl

/-- The board with panel p's play at its end, its outcome apart. -/
def State.ended (s : State) (p : Nat) : State := (clearZone p s).setPlay p none

theorem endPlay_play {r : Play} (busy : (s.panel p).zone.busy = true) (h : s.play? p = some r) (o : PlayOutcome) :
    endPlay p o s = leaves p r (o.effect p r (s.ended p)) := by
  have play : (clearZone p s).play? p = some r := h
  rw [endPlay_busy busy, handOutcome_play play]
  rfl

/-- The round a panel leaves (R131). -/
theorem Carousel.leaveRound_eq (p : Nat) (c : Carousel) : c.leaveRound p =
    match c.round with
    | none => c
    | some x =>
      if x.pending &&& ~~~(1#12 <<< (p - 1)) = 0 then
        { c with round := none, cursor := x.ref.elim c.cursor fun i => if i + 1 = c.ring.length then 0 else i + 1 }
      else { c with round := some { x with pending := x.pending &&& ~~~(1#12 <<< (p - 1)) } } := by
  unfold Carousel.leaveRound
  cases hc : c.round with
  | none => rfl
  | some x =>
    cases hx : x.ref <;> simp only [hx, pastEntry, dropFromSet, Option.elim]

/-! ### The zone deadline -/

/-- A play whose deadline is reached ends with CLIP TIMEOUT, whichever of the two states the zone is in (R150). -/
theorem settle_timeout {r : Play} (hs : s.Settled) (d detail : Nat) :
    settle (leaves p r (raise (.play p) .clipTimeout p detail ((reach d s).ended p))) =
      { leaves p r (s.ended p) with
        core := { s.core with now := max s.core.now d }
        queues := offerAll s.ports s.queues
          { kind := .clipTimeout, m := s.cal.m, second := s.cal.second, subject := .panel, number := p, detail }
        choice := s.choice + 1 } := by
  obtain ⟨outbox, journal⟩ := hs
  have raised : (raise (.play p) .clipTimeout p detail ((reach d s).ended p)).outbox =
      [(.play p, { kind := .clipTimeout, m := s.cal.m, second := s.cal.second, subject := .panel, number := p, detail })] := by
    show s.outbox ++ _ = _
    rw [outbox]
    rfl
  unfold leaves
  split
  · rw [settle_one (s := (raise (.play p) .clipTimeout p detail ((reach d s).ended p)).modCarousel r.carousel (Carousel.leaveRound p))
      raised journal]
    simp only [State.modCarousel, raise, State.ended, clearZone, State.modPanel, State.setPlay, reach, outbox]
  · rw [settle_one raised journal]
    simp only [raise, State.ended, clearZone, State.modPanel, State.setPlay, reach, outbox]

/-- Settles O51: the deadline is `endPlay` with the outcome of the zone's state, and `leaves` is R131. -/
theorem zoneDeadlineEndsThePlay : Obligations.ZoneDeadlineEndsThePlay := by
  unfold Obligations.ZoneDeadlineEndsThePlay
  intro p d cue r s hs _ q zone play kind leave ended
  have play' : (reach d s).play? q = some r := play
  have leave_eq : leave = Carousel.leaveRound q := funext fun c => (Carousel.leaveRound_eq q c).symm
  have here : (leaves q r (s.ended q)) = if r.roundMark then ended.modCarousel r.carousel leave else ended := by
    rw [leave_eq]
    rfl
  rw [← here]
  have run : exec (.zoneDeadline p) s = .next (zoneDeadline q s) := rfl
  rw [run]
  rcases zone with cued | playing
  · have end1 : zoneDeadline q s = settle (endPlay q .cueTimeout (reach d s)) := by
      unfold zoneDeadline
      rw [cued]
    have busy : ((reach d s).panel q).zone.busy = true := congrArg Zone.busy cued
    have kind0 : kind = 0 := if_neg (by rw [cued]; exact nofun)
    rw [end1, endPlay_play busy play', kind0]
    exact congrArg Host.Outcome.next (settle_timeout hs d _)
  · have end2 : zoneDeadline q s = settle (endPlay q .playTimeout (reach d s)) := by
      unfold zoneDeadline
      rw [playing]
    have busy : ((reach d s).panel q).zone.busy = true := congrArg Zone.busy playing
    have kind1 : kind = 1 := if_pos playing
    rw [end2, endPlay_play busy play', kind1]
    exact congrArg Host.Outcome.next (settle_timeout hs d _)

end Sys2Proof.Machine
end

section
/-! PROOFS about the head states and the misses (R154, R159, R162, R163, R169). -/

namespace Sys2Proof.Machine

variable {s t : State} {p : Nat}

/-! ### A head state entered -/

theorem judgeMember_idle (h : (s.panel p).zone = .idle) : judgeMember p s = s := by
  unfold judgeMember
  cases s.play? p with
  | none => rfl
  | some r =>
    dsimp only
    rw [stopZone_idle h, ite_self]

theorem judgeMember_fits (h : ∀ r, s.play? p = some r → s.member r.carousel p = true) : judgeMember p s = s := by
  unfold judgeMember
  cases hr : s.play? p with
  | none => rfl
  | some r => exact if_pos (h r hr)

/-- The change of the link and the record that a head state brings (R169). -/
def entered (p : Nat) (h : HeadState) (s : State) : State :=
  raise (.link p) .panelState p h.code (s.modLink p fun l => { l with head := h })

theorem stopZone_panel (p q : Nat) (s : State) : (stopZone p s).panel q = if q = p then { s.panel p with zone := .idle } else s.panel q :=
  (endPlay_effect p .stop s).1 q

theorem stopZone_play? (p q : Nat) (s : State) :
    (stopZone p s).play? q = if q = p ∧ (s.panel p).zone.busy = true then none else s.play? q :=
  (endPlay_effect p .stop s).2.2.2 q

theorem clearTexts_panel (p q : Nat) (s : State) : (clearTexts p s).panel q = if q = p then { s.panel p with current := [] } else s.panel q :=
  State.panel_modPanel p q _ s rfl

/-- A head state that empties the panel leaves its zone IDLE, and no membership is left to judge (R154). -/
theorem enterHead_empties {h : HeadState} (he : h.empties = true) (p : Nat) (s : State) :
    enterHead p h s = clearTexts p (stopZone p (entered p h s)) := by
  have idle : ((clearTexts p (stopZone p (entered p h s))).panel p).zone = .idle := by
    rw [clearTexts_panel, if_pos rfl, stopZone_panel, if_pos rfl]
  unfold enterHead
  dsimp only
  rw [if_pos he]
  exact judgeMember_idle idle

/-- A head state that keeps the panel judges its membership (R128). -/
theorem enterHead_keeps {h : HeadState} (he : h.empties = false) (p : Nat) (s : State) :
    enterHead p h s = judgeMember p (entered p h s) := by
  unfold enterHead
  dsimp only
  rw [he]
  rfl

/-- Entering a head state raises one record, changes the link, and beyond that the zones alone (R154, R169). -/
theorem enterHead_only (p : Nat) (h : HeadState) (s : State) : OnlyZones (entered p h s) (enterHead p h s) := by
  cases he : h.empties with
  | true =>
    rw [enterHead_empties he]
    exact (stopZone_only p _).trans (.modPanel p _ _)
  | false =>
    rw [enterHead_keeps he]
    exact judgeMember_only p _

theorem enterHead_links (p : Nat) (h : HeadState) (s : State) : (enterHead p h s).links = (s.modLink p fun l => { l with head := h }).links := by
  obtain ⟨cs, ps, qs, e⟩ := enterHead_only p h s
  rw [e]
  rfl

theorem enterHead_panel {h : HeadState} (he : h.empties = true) (p q : Nat) (s : State) :
    (enterHead p h s).panel q = if q = p then { s.panel p with zone := .idle, current := [] } else s.panel q := by
  rw [enterHead_empties he, clearTexts_panel, stopZone_panel, stopZone_panel, if_pos rfl]
  split <;> rfl

/-- The panel of a play that fits keeps it, where its head is present before and after (R128). -/
theorem enterHead_fits {h : HeadState} (hp : h.present = true) (place : 1 ≤ p ∧ p ≤ s.links.length)
    (present : (s.link p).head.present = true) (fits : ∀ r, s.play? p = some r → s.member r.carousel p = true) :
    enterHead p h s = entered p h s := by
  have keeps : h.empties = false := by
    cases h <;> first | rfl | cases hp
  have link : (entered p h s).link p = { s.link p with head := h } := State.link_modLink place _
  rw [enterHead_keeps keeps]
  refine judgeMember_fits fun r hr => ?_
  rw [← fits r hr]
  unfold State.member
  rw [link]
  dsimp only
  rw [hp, present]
  rfl

/-- What an arrival does that enters one head state: the record joins the queues. -/
theorem settle_enterHead (hs : s.Settled) (h : HeadState) : settle (enterHead p h s) =
    { enterHead p h s with
      queues := offerAll s.ports s.queues
        { kind := .panelState, m := s.cal.m, second := s.cal.second, subject := .panel, number := p, detail := h.code }
      outbox := []
      choice := s.choice + 1 } := by
  obtain ⟨outbox, journal⟩ := hs
  obtain ⟨cs, ps, qs, e⟩ := enterHead_only p h s
  rw [e]
  have raised : (entered p h s).outbox =
      [(.link p, { kind := .panelState, m := s.cal.m, second := s.cal.second, subject := .panel, number := p, detail := h.code })] := by
    show s.outbox ++ _ = _
    rw [outbox]
    rfl
  exact settle_one (s := { entered p h s with carousels := cs, plays := ps, panels := qs }) raised journal

/-- A change of a link that keeps its head present and its zone leaves the membership (R128). -/
theorem State.member_modLink {f : LinkContext → LinkContext} (place : 1 ≤ p ∧ p ≤ s.links.length)
    (head : (f (s.link p)).head.present = (s.link p).head.present) (zone : (f (s.link p)).zonePresent = (s.link p).zonePresent) (k : Nat) :
    (s.modLink p f).member k p = s.member k p := by
  unfold State.member
  rw [State.link_modLink place, head, zone]
  rfl

/-! ### Misses -/

theorem miss_missing (h : (s.link p).head = .seeking ∨ (s.link p).head = .lost) : miss p s = s := by
  unfold miss
  rcases h with h | h <;> simp only [h]

/-- A miss short of the next head state (R163). -/
theorem miss_counts (h : ((s.link p).head = .live ∧ (s.link p).missRun < 2) ∨ ((s.link p).head = .degraded ∧ (s.link p).missRun < 11)) :
    miss p s = s.modLink p fun l => { l with missRun := l.missRun + 1 } := by
  unfold miss
  rcases h with ⟨h, few⟩ | ⟨h, few⟩ <;> simp only [h] <;> exact if_neg (by omega)

theorem miss_degrades (h : (s.link p).head = .live) (third : (s.link p).missRun = 2) :
    miss p s = enterHead p .degraded (s.modLink p fun l => { l with missRun := l.missRun + 1 }) := by
  unfold miss
  simp only [h]
  exact if_pos (by omega)

theorem miss_loses (h : (s.link p).head = .degraded) (twelfth : (s.link p).missRun = 11) :
    miss p s = enterHead p .lost (s.modLink p fun l => { l with missRun := l.missRun + 1, lostCount := 0 }) := by
  unfold miss
  simp only [h, modLink_modLink]
  exact if_pos (by omega)

/-- What closes an open window without a report: its expiry, or a length field outside 6 to 15 (R159, R194). -/
def Fruitless (c : Instr) (p : Link) : Prop := c = .replyWindowExpiry p ∨ ∃ n : Half, c = .reportLengthFailure p n ∧ (n.toNat < 6 ∨ 15 < n.toNat)

/-- A link whose open window brought no report (R159, R160). -/
def LinkContext.faulted (l : LinkContext) (expired : Bool) : LinkContext :=
  { l with window := none, checkFault := l.checkFault || !expired, timeoutFault := l.timeoutFault || (expired && l.head.present) }

theorem exec_fruitless {c : Instr} {p : Link} {k : FrameKind} (open_ : (s.link (panelOf p)).window = some k) (h : Fruitless c p) :
    exec c s = .next (settle (miss (panelOf p)
      (s.modLink (panelOf p) fun _ => (s.link (panelOf p)).faulted (decide (c = .replyWindowExpiry p))))) := by
  rcases h with rfl | ⟨n, rfl, bad⟩
  · have run : exec (.replyWindowExpiry p) s = .next (windowExpiry (panelOf p) s) := rfl
    rw [run]
    unfold windowExpiry
    rw [open_]
    dsimp only
    congr 3
    split
    next present => 
      refine (modLink_modLink _ _ _ s).trans (modLink_congr ?_)
      simp [LinkContext.faulted, present]
    next missing =>
      refine modLink_congr ?_
      simp [LinkContext.faulted, missing]
  · have run : exec (.reportLengthFailure p n) s = .next (settle (badShape (panelOf p) s)) := by
      show Host.Outcome.next _ = _
      rw [open_]
      exact congrArg _ (if_pos bad)
    rw [run]
    unfold badShape
    congr 3
    refine (modLink_modLink _ _ _ s).trans (modLink_congr ?_)
    simp [LinkContext.faulted]

/-- The board with a link's context replaced. -/
def State.withLink (s : State) (p : Nat) (l : LinkContext) : State := s.modLink p fun _ => l

theorem State.withLink_link (place : 1 ≤ p ∧ p ≤ s.links.length) (l : LinkContext) : (s.withLink p l).link p = l :=
  State.link_modLink place _

theorem State.withLink_link_other {i : Nat} (h : i ≠ p) (l : LinkContext) (s : State) : (s.withLink p l).link i = s.link i :=
  State.link_modLink_other h _ s

theorem State.withLink_place {l : LinkContext} (place : 1 ≤ p ∧ p ≤ s.links.length) : 1 ≤ p ∧ p ≤ (s.withLink p l).links.length := by
  simpa [State.withLink, State.modLink] using place

theorem enterHead_withLink (place : 1 ≤ p ∧ p ≤ s.links.length) (h : HeadState) (l : LinkContext) :
    (enterHead p h (s.withLink p l)).link p = { l with head := h } ∧
      ∀ i, i ≠ p → (enterHead p h (s.withLink p l)).link i = s.link i := by
  have links := enterHead_links p h (s.withLink p l)
  refine ⟨?_, fun i hi => ?_⟩
  · rw [State.link_congr links, State.link_modLink (State.withLink_place place), State.withLink_link place]
  · rw [State.link_congr links, State.link_modLink_other hi, State.withLink_link_other hi]

/-- The third miss of a LIVE head (R162, R163). -/
theorem miss_third {l : LinkContext} (hs : s.Settled) (place : 1 ≤ p ∧ p ≤ s.links.length) (live : l.head = .live) (run : l.missRun = 2) :
    ∃ t, settle (miss p (s.withLink p l)) = t ∧ t.link p = { l with missRun := 3, head := .degraded } ∧
      (∀ i, i ≠ p → t.link i = s.link i) ∧
      ((s.link p).head = .live → l.zonePresent = (s.link p).zonePresent → s.PlaysFit →
        t = { s with links := t.links, queues := t.queues, choice := t.choice }) ∧
      t.queues = offerAll s.ports s.queues
        { kind := .panelState, m := s.cal.m, second := s.cal.second, subject := .panel, number := p, detail := 3 } := by
  have read := State.withLink_link place l
  have missed : miss p (s.withLink p l) = enterHead p .degraded (s.withLink p { l with missRun := 3 }) := by
    rw [miss_degrades (by rw [read]; exact live) (by rw [read]; exact run)]
    unfold State.withLink
    rw [modLink_modLink, run]
  obtain ⟨here, others⟩ := enterHead_withLink place .degraded { l with missRun := 3 }
  refine ⟨_, rfl, ?_⟩
  rw [missed, settle_enterHead (s := s.withLink p { l with missRun := 3 }) hs]
  refine ⟨here, others, fun was zone fits => ?_, rfl⟩
  have stays : enterHead p .degraded (s.withLink p { l with missRun := 3 }) = entered p .degraded (s.withLink p { l with missRun := 3 }) := by
    refine enterHead_fits rfl (State.withLink_place place) (by rw [State.withLink_link place, live]; rfl) fun r hr => ?_
    rw [← fits p r hr]
    exact State.member_modLink place (by rw [live, was]) zone _
  rw [stays, ← hs.1]
  rfl

/-- The twelfth miss of a DEGRADED head (R162, R163). -/
theorem miss_twelfth {l : LinkContext} (hs : s.Settled) (place : 1 ≤ p ∧ p ≤ s.links.length) (degraded : l.head = .degraded)
    (run : l.missRun = 11) :
    ∃ t, settle (miss p (s.withLink p l)) = t ∧ t.link p = { l with missRun := 12, head := .lost, lostCount := 0 } ∧
      (t.panel p).zone = .idle ∧ (t.panel p).current = [] ∧ (∀ i, i ≠ p → t.panel i = s.panel i ∧ t.link i = s.link i) ∧
      t.queues = offerAll s.ports s.queues
        { kind := .panelState, m := s.cal.m, second := s.cal.second, subject := .panel, number := p, detail := 4 } ∧
      t = { s with
        carousels := t.carousels
        plays := t.plays
        panels := t.panels
        links := t.links
        queues := t.queues
        choice := t.choice } := by
  have read := State.withLink_link place l
  have missed : miss p (s.withLink p l) = enterHead p .lost (s.withLink p { l with missRun := 12, lostCount := 0 }) := by
    rw [miss_loses (by rw [read]; exact degraded) (by rw [read]; exact run)]
    unfold State.withLink
    rw [modLink_modLink, run]
  obtain ⟨here, others⟩ := enterHead_withLink place .lost { l with missRun := 12, lostCount := 0 }
  have panel := fun i => enterHead_panel (h := .lost) rfl p i (s.withLink p { l with missRun := 12, lostCount := 0 })
  obtain ⟨cs, ps, qs, frame⟩ := enterHead_only p .lost (s.withLink p { l with missRun := 12, lostCount := 0 })
  refine ⟨_, rfl, ?_⟩
  rw [missed, settle_enterHead (s := s.withLink p { l with missRun := 12, lostCount := 0 }) hs]
  refine ⟨here, congrArg Panel.zone ((panel p).trans (if_pos rfl)), congrArg Panel.current ((panel p).trans (if_pos rfl)),
    fun i hi => ⟨(panel i).trans (if_neg hi), others i hi⟩, rfl, ?_⟩
  rw [frame, ← hs.1]
  rfl

/-- Settles O47: the link is `LinkContext.faulted`, and the rest is the miss. -/
theorem missesWearTheHeadOut : Obligations.MissesWearTheHeadOut := by
  unfold Obligations.MissesWearTheHeadOut
  intro c p k s hs _ window hc q l faulted
  have run : exec c s = .next (settle (miss q (s.withLink q faulted))) := by
    refine (exec_fruitless window hc).trans ?_
    unfold LinkContext.faulted State.withLink
    rw [← decide_not]
  have place := State.link_in (s := s) (p := q) (by intro e; rw [e] at window; cases window)
  have read := State.withLink_link place faulted
  have settled : settle (s.withLink q faulted) = s.withLink q faulted := settle_settled hs
  refine ⟨fun missing => ?_, fun few => ?_, fun live third => ?_, fun degraded twelfth => ?_⟩
  · rw [run, miss_missing (by rw [read]; exact missing), settled]
    rfl
  · rw [run, miss_counts (by rw [read]; exact few)]
    unfold State.withLink
    rw [modLink_modLink]
    exact congrArg _ (settle_settled hs)
  · obtain ⟨t, ht, here, others, fits, queues⟩ := miss_third (l := faulted) hs place live third
    exact ⟨t, run.trans (congrArg _ ht), here, others, fits live rfl, queues⟩
  · obtain ⟨t, ht, here, zone, texts, others, queues, frame⟩ := miss_twelfth (l := faulted) hs place degraded twelfth
    exact ⟨t, run.trans (congrArg _ ht), here, zone, texts, others, queues, frame⟩

end Sys2Proof.Machine
end

section
/-! PROOFS about the reports of a head: how their bytes are read (R160, R161, R194) and what a status report does (R153, R164). -/

namespace Sys2Proof.Machine

variable {s t : State} {p : Nat}

/-! ### Reading a report -/

/-- A report that carries its CRC is read (R161, R194). -/
theorem arrived_withCrc {h l : Byte} {b : List Byte} (h6 : 6 ≤ (Wire.half h l).toNat) (h15 : (Wire.half h l).toNat ≤ 15)
    (hb : b.length = (Wire.half h l).toNat) : arrived (0xA5#8 :: withCrc (h :: l :: b)) = .complete (readReport b) := by
  have spelled : withCrc (h :: l :: b) =
      h :: l :: (b ++ [Wire.hiByte (crc (h :: l :: b)), Wire.loByte (crc (h :: l :: b))]) := rfl
  rw [spelled, arrived_report h6 h15 hb, half_hiByte_loByte, if_pos rfl]

/-- The bytes of acknowledgements. -/
def ackBytes (acks : List (Half × Byte)) : List Byte := acks.flatMap fun a => [Wire.hiByte a.1, Wire.loByte a.1, a.2]

theorem readAcks_ackBytes (acks : List (Half × Byte)) (rest : List Byte) :
    readAcks acks.length (ackBytes acks ++ rest) = some (acks.map fun a => (a.1.toNat, a.2.toNat), rest) := by
  induction acks with
  | nil => rfl
  | cons a acks ih =>
    show (readAcks acks.length (ackBytes acks ++ rest)).map _ = _
    rw [ih, half_hiByte_loByte]
    rfl

/-- The report that well-formed bytes spell (spec/12). -/
theorem readReport_status {q : Nat} (hq : q ≤ 12) {blank token clip : Byte} {c : ClipReport} {acks : List (Half × Byte)}
    {kind : Byte} {rest : List Byte} {i : Option Identity} (hb : blank.toNat ≤ 1) (hc : clipReportOf clip = some c) (ha : acks.length ≤ 2)
    (hi : readIdentity kind rest = some i) :
    readReport (kind :: BitVec.ofNat 8 q :: blank :: token :: clip :: BitVec.ofNat 8 acks.length :: (ackBytes acks ++ rest)) =
      some { panel := q, blank := decide (blank = 1), token := token.toNat, clip := c,
             acks := acks.map fun a => (a.1.toNat, a.2.toNat), identity := i } := by
  have count : (BitVec.ofNat 8 acks.length).toNat = acks.length := by
    rw [BitVec.toNat_ofNat]
    omega
  have panel : (BitVec.ofNat 8 q).toNat = q := by
    rw [BitVec.toNat_ofNat]
    omega
  have lit : decide (blank.toNat = 1) = decide (blank = 1) := decide_eq_decide.mpr (BitVec.toNat_inj (y := (1 : Byte)))
  unfold readReport
  dsimp only
  rw [count, panel, if_neg (by omega), hc, readAcks_ackBytes]
  dsimp only
  rw [hi, lit]
  rfl

/-! ### A report in its window -/

theorem headReport_complete {k : FrameKind} {b : List Byte} {r : Report} (window : (s.link p).window = some k)
    (h : arrived b = .complete (some r)) : headReport p b s = settle (judgeReport p k r (closeWindow p s)) := by
  unfold headReport
  rw [window]
  dsimp only
  rw [h]

theorem headReport_broken {k : FrameKind} {b : List Byte} (window : (s.link p).window = some k)
    (h : arrived b = .complete none) : headReport p b s = settle (badShape p s) := by
  unfold headReport
  rw [window]
  dsimp only
  rw [h]

/-- A report of the link's own panel, without an identity, to a page (R160). -/
theorem judgeReport_page {r : Report} (own : r.panel = p) (plain : r.identity = none) : judgeReport p .page r s = takeValid p r s := by
  unfold judgeReport
  rw [plain, if_neg (by simp [own]), if_neg (by simp [ifPresent]), if_neg (by simp)]

theorem takeValid_plain {r : Report} (plain : r.identity = none) (present : (s.link p).head = .live ∨ (s.link p).head = .degraded) :
    takeValid p r s = takeReport p r s := by
  unfold takeValid
  rcases present with h | h <;> rw [h, plain]

theorem clipReport_none (p token : Nat) (s : State) : clipReport p token .none s = s := by
  unfold clipReport
  split <;> first | rfl | exact ite_self s

/-! ### Acknowledgements -/

/-- The text-current set under one acknowledgement (R153). -/
def State.acked (s : State) (l : List Nat) (a : Nat × Nat) : List Nat :=
  if (s.text a.1).present ∧ (s.text a.1).revision = a.2 then insertId a.1 l else l

theorem modPanel_modPanel (p : Nat) (f g : Panel → Panel) (s : State) :
    (s.modPanel p f).modPanel p g = s.modPanel p fun c => g (f c) := by
  unfold State.modPanel
  rw [modSlot_modSlot]

theorem modPanel_self (p : Nat) (s : State) : (s.modPanel p fun c => c) = s := by
  have same : modSlot (fun c : Panel => c) s.panels p = s.panels := by
    cases p with
    | zero => rfl
    | succ n => exact List.modify_id _ _
  unfold State.modPanel
  rw [same]

theorem takeAck_eq (p : Nat) (s : State) (a : Nat × Nat) :
    takeAck p s a = s.modPanel p fun c => { c with current := s.acked c.current a } := by
  unfold takeAck State.acked
  split
  · rfl
  · exact (modPanel_self p s).symm

theorem takeAcks_eq (p : Nat) (acks : List (Nat × Nat)) (s : State) :
    acks.foldl (takeAck p) s = s.modPanel p fun c => { c with current := acks.foldl s.acked c.current } := by
  induction acks generalizing s with
  | nil => exact (modPanel_self p s).symm
  | cons a acks ih =>
    rw [List.foldl_cons, ih, takeAck_eq, modPanel_modPanel]
    rfl

theorem mem_acked {acks : List (Nat × Nat)} {l : List Nat} {i : Nat} : i ∈ acks.foldl s.acked l ↔
    i ∈ l ∨ ∃ a ∈ acks, a.1 = i ∧ (s.text i).present = true ∧ (s.text i).revision = a.2 := by
  induction acks generalizing l with
  | nil => simp
  | cons a acks ih =>
    rw [List.foldl_cons, ih]
    unfold State.acked
    split
    next h =>
      rw [mem_insertId]
      constructor
      · rintro ((rfl | hl) | ⟨b, hb, k⟩)
        · exact .inr ⟨a, List.mem_cons_self, rfl, h⟩
        · exact .inl hl
        · exact .inr ⟨b, List.mem_cons_of_mem _ hb, k⟩
      · rintro (hl | ⟨b, hb, rfl, k⟩)
        · exact .inl (.inr hl)
        · rcases List.mem_cons.mp hb with rfl | hb
          · exact .inl (.inl rfl)
          · exact .inr ⟨b, hb, rfl, k⟩
    next h =>
      constructor
      · rintro (hl | ⟨b, hb, k⟩)
        · exact .inl hl
        · exact .inr ⟨b, List.mem_cons_of_mem _ hb, k⟩
      · rintro (hl | ⟨b, hb, rfl, k⟩)
        · exact .inl hl
        · rcases List.mem_cons.mp hb with rfl | hb
          · exact absurd k h
          · exact .inr ⟨b, hb, rfl, k⟩

/-! ### A status report -/

/-- A valid report without an identity, of a LIVE head: its clip report and its acknowledgements at the link (R164). -/
theorem takeReport_live {r : Report} (live : (s.link p).head = .live) : takeReport p r s =
    (r.acks.foldl (takeAck p) (clipReport p r.token r.clip (s.modLink p fun l => { l with missRun := 0 }))).modLink p
      fun l => { l with reportedBlank := some r.blank } := by
  unfold takeReport takeStatus
  dsimp only
  rw [live, if_neg nofun]

/-- A valid report without an identity, of a DEGRADED head (R162, R164). -/
theorem takeReport_degraded {r : Report} (degraded : (s.link p).head = .degraded) : takeReport p r s =
    (r.acks.foldl (takeAck p) (clipReport p r.token r.clip (enterHead p .live (s.modLink p fun l => { l with missRun := 0 })))).modLink p
      fun l => { l with reportedBlank := some r.blank } := by
  unfold takeReport takeStatus
  dsimp only
  rw [degraded, if_pos rfl]

theorem closeWindow_link (place : 1 ≤ p ∧ p ≤ s.links.length) : (closeWindow p s).link p = { s.link p with window := none } :=
  State.link_modLink place _

/-- The report of a present head to a page, with the window closed first (R160, R164). -/
theorem judgeReport_present {r : Report} (window : (s.link p).window = some .page)
    (present : (s.link p).head = .live ∨ (s.link p).head = .degraded) (own : r.panel = p) (plain : r.identity = none) :
    judgeReport p .page r (closeWindow p s) = takeReport p r (closeWindow p s) ∧
      ((closeWindow p s).link p).head = (s.link p).head := by
  have place := State.link_in (s := s) (p := p) (by intro e; rw [e] at window; cases window)
  have head : ((closeWindow p s).link p).head = (s.link p).head := by rw [closeWindow_link place]
  exact ⟨by rw [judgeReport_page own plain, takeValid_plain plain (by rw [head]; exact present)], head⟩

/-- A status report of a head that stays LIVE and without acknowledgements does what its clip report does (R164). -/
theorem exec_status {p : Link} {blank token clip : Byte} {c : ClipReport} (window : (s.link (panelOf p)).window = some .page)
    (live : (s.link (panelOf p)).head = .live) (hb : blank.toNat ≤ 1) (hc : clipReportOf clip = some c) :
    exec (.headReport p (0xA5#8 :: withCrc [0, 6, 8, BitVec.ofNat 8 (panelOf p), blank, token, clip, 0])) s =
      .next (settle ((clipReport (panelOf p) token.toNat c
        (s.modLink (panelOf p) fun l => { l with window := none, missRun := 0 })).modLink (panelOf p)
          fun l => { l with reportedBlank := some (decide (blank = 1)) })) := by
  have range := panelNumbers_range (panelOf_mem p)
  have read := readReport_status (acks := []) (kind := 8) (rest := []) (i := none) (token := token) range.2 hb hc (by simp) rfl
  have arrives := (arrived_withCrc (h := 0) (l := 6) (b := [8, BitVec.ofNat 8 (panelOf p), blank, token, clip, 0])
    (by decide) (by decide) (show 6 = (Wire.half 0 6).toNat by decide)).trans (congrArg Arrived.complete read)
  obtain ⟨judged, head⟩ := judgeReport_present (r := Report.mk (panelOf p) (decide (blank = 1)) token.toNat c [] none) window
    (.inl live) rfl rfl
  have run : exec (.headReport p (0xA5#8 :: withCrc [0, 6, 8, BitVec.ofNat 8 (panelOf p), blank, token, clip, 0])) s =
      .next (headReport (panelOf p) (0xA5#8 :: withCrc [0, 6, 8, BitVec.ofNat 8 (panelOf p), blank, token, clip, 0]) s) := rfl
  rw [run, headReport_complete window arrives]
  refine congrArg (fun u => Host.Outcome.next (settle u)) (judged.trans ?_)
  rw [takeReport_live (by rw [head]; exact live)]
  unfold closeWindow
  rw [modLink_modLink]
  rfl

/-- The bytes of a status report with a wrong CRC (R161). -/
theorem exec_broken {p : Link} {blank token hi lo : Byte} (window : (s.link (panelOf p)).window = some .page)
    (wrong : crc [0, 6, 8, BitVec.ofNat 8 (panelOf p), blank, token, 0, 0] ≠ Wire.half hi lo) :
    exec (.headReport p (0xA5#8 :: ([0, 6, 8, BitVec.ofNat 8 (panelOf p), blank, token, 0, 0] ++ [hi, lo]))) s =
      .next (settle (badShape (panelOf p) s)) := by
  have arrives := (arrived_report (h := 0) (l := 6) (hi := hi) (lo := lo) (b := [8, BitVec.ofNat 8 (panelOf p), blank, token, 0, 0])
    (by decide) (by decide) (show 6 = (Wire.half 0 6).toNat by decide)).trans (congrArg Arrived.complete (if_neg wrong))
  exact congrArg Host.Outcome.next (headReport_broken window arrives)

/-- The board after a status report of a head that is LIVE then: the link, and the text-current set (R153, R164). -/
def State.acknowledged (s : State) (q : Nat) (r : Report) : State :=
  (s.modLink q fun l => { l with head := .live, window := none, missRun := 0, reportedBlank := some r.blank }).modPanel q
    fun c => { c with current := r.acks.foldl s.acked c.current }

theorem modLink_modPanel_comm (p q : Nat) (f : Panel → Panel) (g : LinkContext → LinkContext) (s : State) :
    (s.modPanel p f).modLink q g = (s.modLink q g).modPanel p f := rfl

theorem acked_modLink (p : Nat) (g : LinkContext → LinkContext) (s : State) : (s.modLink p g).acked = s.acked := rfl

theorem takeReport_live_acks {q : Nat} {r : Report} (hs : s.Settled) (place : 1 ≤ q ∧ q ≤ s.links.length)
    (live : (s.link q).head = .live) (clip : r.clip = .none) : settle (takeReport q r (closeWindow q s)) = s.acknowledged q r := by
  rw [takeReport_live (by rw [closeWindow_link place]; exact live), clip, clipReport_none, takeAcks_eq]
  unfold closeWindow State.acknowledged
  rw [modLink_modPanel_comm, modLink_modLink, acked_modLink, modLink_modLink]
  refine (settle_settled (s := (s.modLink q _).modPanel q _) hs).trans ?_
  rw [modLink_congr (g := fun l => { l with head := .live, window := none, missRun := 0, reportedBlank := some r.blank })]
  dsimp only
  rw [live]

theorem raise_modPanel_comm (g : Source) (k : EventKind) (n d p : Nat) (f : Panel → Panel) (s : State) :
    (raise g k n d s).modPanel p f = raise g k n d (s.modPanel p f) := rfl

theorem takeReport_degraded_acks {q : Nat} {r : Report} (hs : s.Settled) (fits : s.PlaysFit) (place : 1 ≤ q ∧ q ≤ s.links.length)
    (degraded : (s.link q).head = .degraded) (clip : r.clip = .none) : settle (takeReport q r (closeWindow q s)) =
    { s.acknowledged q r with
      queues := offerAll s.ports s.queues
        { kind := .panelState, m := s.cal.m, second := s.cal.second, subject := .panel, number := q, detail := 2 }
      choice := s.choice + 1 } := by
  have enters : enterHead q .live (s.modLink q fun l => { l with window := none, missRun := 0 }) =
      entered q .live (s.modLink q fun l => { l with window := none, missRun := 0 }) := by
    refine enterHead_fits rfl (by simpa [State.modLink] using place) (by rw [State.link_modLink place, degraded]; rfl) fun x hx => ?_
    rw [← fits q x hx]
    exact State.member_modLink place rfl rfl _
  have acked : (entered q .live (s.modLink q fun l => { l with window := none, missRun := 0 })).acked = s.acked := rfl
  have closed : (closeWindow q s).modLink q (fun l => { l with missRun := 0 }) = s.modLink q fun l => { l with window := none, missRun := 0 } :=
    modLink_modLink ..
  rw [takeReport_degraded (by rw [closeWindow_link place]; exact degraded), closed, enters, clip, clipReport_none, takeAcks_eq, acked,
    modLink_modPanel_comm]
  have link : (entered q .live (s.modLink q fun l => { l with window := none, missRun := 0 })).modLink q
      (fun l => { l with reportedBlank := some r.blank }) =
      raise (.link q) .panelState q 2
        (s.modLink q fun l => { l with head := .live, window := none, missRun := 0, reportedBlank := some r.blank }) := by
    have := modLink_modLink q (fun l => { l with window := none, missRun := 0 }) (fun l => { l with head := HeadState.live }) s
    have again := modLink_modLink q (fun l => { l with head := .live, window := none, missRun := 0 })
      (fun l => { l with reportedBlank := some r.blank }) s
    unfold entered
    rw [this]
    exact congrArg (raise (.link q) .panelState q 2) again
  rw [link, raise_modPanel_comm]
  exact settle_raise (.link q) .panelState q 2 (s := s.acknowledged q r) hs

theorem acknowledged_link {q : Nat} (place : 1 ≤ q ∧ q ≤ s.links.length) (r : Report) : (s.acknowledged q r).link q =
    { s.link q with head := .live, window := none, missRun := 0, reportedBlank := some r.blank } :=
  State.link_modLink place _

theorem acknowledged_panel {q : Nat} (place : 1 ≤ q ∧ q ≤ s.panels.length) (r : Report) :
    (s.acknowledged q r).panel q = { s.panel q with current := r.acks.foldl s.acked (s.panel q).current } :=
  slot_modSlot_same _ _ s.panels q place.1 place.2

theorem acknowledged_other {q i : Nat} (h : i ≠ q) (r : Report) :
    (s.acknowledged q r).link i = s.link i ∧ (s.acknowledged q r).panel i = s.panel i :=
  ⟨State.link_modLink_other h _ s, slot_modSlot_other _ _ s.panels q i h⟩

/-- A status report of a present head with up to two acknowledgements (R153, R164). -/
theorem exec_acks {p : Link} {blank token : Byte} {acks : List (Half × Byte)} (window : (s.link (panelOf p)).window = some .page)
    (present : (s.link (panelOf p)).head = .live ∨ (s.link (panelOf p)).head = .degraded) (hb : blank.toNat ≤ 1) (ha : acks.length ≤ 2) :
    exec (.headReport p (0xA5#8 :: withCrc ([0, BitVec.ofNat 8 (6 + 3 * acks.length), 8, BitVec.ofNat 8 (panelOf p), blank, token, 0,
        BitVec.ofNat 8 acks.length] ++ acks.flatMap fun a => [Wire.hiByte a.1, Wire.loByte a.1, a.2]))) s =
      .next (settle (takeReport (panelOf p)
        { panel := panelOf p, blank := decide (blank = 1), token := token.toNat, clip := .none,
          acks := acks.map fun a => (a.1.toNat, a.2.toNat), identity := none } (closeWindow (panelOf p) s))) := by
  have range := panelNumbers_range (panelOf_mem p)
  have read := readReport_status (acks := acks) (kind := 8) (rest := []) (i := none) (token := token) range.2 hb (clip := 0) rfl ha rfl
  rw [List.append_nil] at read
  have length : (ackBytes acks).length = 3 * acks.length := by
    unfold ackBytes
    simp [List.length_flatMap, Nat.mul_comm]
  have size : (Wire.half 0 (BitVec.ofNat 8 (6 + 3 * acks.length))).toNat = 6 + 3 * acks.length := by
    have few : acks.length = 0 ∨ acks.length = 1 ∨ acks.length = 2 := by omega
    rcases few with e | e | e <;> rw [e] <;> decide
  have arrives := (arrived_withCrc (h := 0) (l := BitVec.ofNat 8 (6 + 3 * acks.length))
    (b := [8, BitVec.ofNat 8 (panelOf p), blank, token, 0, BitVec.ofNat 8 acks.length] ++ ackBytes acks)
    (by rw [size]; omega) (by rw [size]; omega) (by rw [size, List.length_append, length]; rfl)).trans (congrArg Arrived.complete read)
  obtain ⟨judged, -⟩ := judgeReport_present (r := Report.mk (panelOf p) (decide (blank = 1)) token.toNat .none
    (acks.map fun a => (a.1.toNat, a.2.toNat)) none) window present rfl rfl
  exact congrArg Host.Outcome.next ((headReport_complete window arrives).trans (congrArg settle judged))

/-- Settles O48, by the head state the report meets; the acknowledgements are `takeAcks_eq`. -/
theorem statusReportAnswersThePage : Obligations.StatusReportAnswersThePage := by
  unfold Obligations.StatusReportAnswersThePage
  constructor
  · intro p blank token hi lo s hs q body window live few hb
    refine ⟨?_, fun wrong => ?_⟩
    · rw [exec_status window live hb rfl, clipReport_none, modLink_modLink]
      exact congrArg _ (settle_settled hs)
    · have place := State.link_in (s := s) (p := q) (by intro e; rw [e] at window; cases window)
      have closed : setCheck q (closeWindow q s) = s.modLink q fun l => { l with window := none, checkFault := true } := modLink_modLink ..
      rw [exec_broken window wrong]
      unfold badShape
      rw [closed, miss_counts (by rw [State.link_modLink place]; exact .inl ⟨live, few⟩), modLink_modLink]
      exact congrArg _ (settle_settled hs)
  · intro p blank token acks s hs shape fits q body window present hb ha
    have place := State.link_in (s := s) (p := q) (by intro e; rw [e] at window; cases window)
    have panels : 1 ≤ q ∧ q ≤ s.panels.length := by
      rw [shape.panels, ← shape.links]
      exact place
    obtain ⟨r, hr⟩ : ∃ r : Report, r = Report.mk q (decide (blank = 1)) token.toNat .none (acks.map fun a => (a.1.toNat, a.2.toNat)) none :=
      ⟨_, rfl⟩
    have run : exec (.headReport p (0xA5#8 :: withCrc body)) s = .next (settle (takeReport q r (closeWindow q s))) := by
      rw [hr]
      exact exec_acks window present hb ha
    have link := acknowledged_link place r
    have panel := acknowledged_panel panels r
    have marks : ∀ i, i ∈ ((s.acknowledged q r).panel q).current ↔ i ∈ (s.panel q).current ∨
        ∃ a ∈ acks, a.1.toNat = i ∧ (s.text i).present = true ∧ (s.text i).revision = a.2.toNat := fun i => by
      rw [panel, mem_acked, hr]
      simp only [List.mem_map, exists_exists_and_eq_and]
    have kept : (s.acknowledged q r).panel q = { s.panel q with current := ((s.acknowledged q r).panel q).current } := by rw [panel]
    have blank_eq : r.blank = decide (blank = 1) := by rw [hr]
    rw [blank_eq] at link
    have clip : r.clip = .none := by rw [hr]
    rcases present with live | degraded
    · rw [takeReport_live_acks hs place live clip] at run
      exact ⟨_, run, link, fun i hi => acknowledged_other hi r, kept, marks, (if_neg (by rw [live]; exact nofun)).symm, rfl⟩
    · rw [takeReport_degraded_acks hs fits place degraded clip] at run
      exact ⟨_, run, link, fun i hi => acknowledged_other hi r, kept, marks, (if_pos degraded).symm, rfl⟩

end Sys2Proof.Machine
end

section
/-! PROOFS about clip reports (R132, R133, R149). -/

namespace Sys2Proof.Machine

variable {s t : State} {p : Nat}

/-! ### A clip report at the zone -/

theorem Zone.busy_of_cue {z : Zone} {cue : Cue} (h : z.cue = some cue) : z.busy = true := by
  cases z with
  | idle => cases h
  | cued q d => rfl
  | playing q d => rfl

/-- A report with another token is ignored (R149). -/
theorem clipReport_other {cue : Cue} (h : (s.panel p).zone.cue = some cue) {token : Nat} (ht : cue.token ≠ token) (c : ClipReport) :
    clipReport p token c s = s := by
  unfold clipReport
  cases hz : (s.panel p).zone with
  | idle => rfl
  | cued q d =>
    rw [hz] at h
    obtain rfl := Option.some.inj h
    exact if_pos ht
  | playing q d =>
    rw [hz] at h
    obtain rfl := Option.some.inj h
    exact if_pos ht

/-- STARTED starts a play (R149). -/
theorem clipReport_started {cue : Cue} {d : Option Nat} (h : (s.panel p).zone = .cued cue d) : clipReport p cue.token .started s =
    s.modPanel p fun c => { c with zone := .playing cue (s.core.now + 1000 * cue.length + 5000) } := by
  unfold clipReport
  rw [h]
  exact if_neg (by simp)

theorem clipReport_started_again {cue : Cue} {d : Nat} (h : (s.panel p).zone = .playing cue d) :
    clipReport p cue.token .started s = s := by
  unfold clipReport
  rw [h]
  exact if_neg (by simp)

/-- COMPLETED and FAULT end the play (R149). -/
theorem clipReport_ends {cue : Cue} (h : (s.panel p).zone.cue = some cue) :
    clipReport p cue.token .completed s = endPlay p .completed s ∧ clipReport p cue.token .fault s = endPlay p .fault s := by
  unfold clipReport
  cases hz : (s.panel p).zone with
  | idle =>
    rw [hz] at h
    cases h
  | cued q d =>
    rw [hz] at h
    obtain rfl := Option.some.inj h
    exact ⟨if_neg (by simp), if_neg (by simp)⟩
  | playing q d =>
    rw [hz] at h
    obtain rfl := Option.some.inj h
    exact ⟨if_neg (by simp), if_neg (by simp)⟩

theorem clipReportOf_known {b : Byte} (h : b.toNat ≤ 3) : ∃ c, clipReportOf b = some c := by
  unfold clipReportOf
  have known : b.toNat = 0 ∨ b.toNat = 1 ∨ b.toNat = 2 ∨ b.toNat = 3 := by omega
  rcases known with e | e | e | e <;> simp [e]

/-! ### A FAULT at its entry -/

/-- The outcome code of a FAULT of an entry (R133). -/
def faultCode (kind : ClipKind) (e : Entry) : Nat :=
  if kind = .primary then (if e.alternate.isSome then (if e.usingAlternate then 0 else 1) else 2) else if e.disabled then 0 else 2

theorem Entry.afterFault_eq {kind : ClipKind} (h : kind ≠ .fallback) (e : Entry) : e.afterFault kind =
    ({ e with usingAlternate := e.usingAlternate || decide (faultCode kind e = 1),
              disabled := e.disabled || decide (faultCode kind e = 2) }, faultCode kind e) := by
  obtain ⟨primary, alternate, usingAlternate, disabled, length, feature, daypart⟩ := e
  cases kind with
  | primary => cases alternate <;> cases usingAlternate <;> simp [Entry.afterFault, faultCode]
  | alternate => cases disabled <;> simp [Entry.afterFault, faultCode]
  | fallback => exact absurd rfl h

/-- A FAULT of an entry that the play's reference still names (R133). -/
theorem Carousel.afterFault_entry {r : Play} {c : Carousel} {i : Nat} {e : Entry} (source : r.source = .entry) (ref : r.ref = some i)
    (entry : c.ring[i]? = some e) : c.afterFault r = ({ c with ring := c.ring.set i (e.afterFault r.kind).1 }, (e.afterFault r.kind).2) := by
  unfold Carousel.afterFault
  rw [source, ref]
  dsimp only
  rw [entry]

theorem modCarousel_congr {k : Nat} {f g : Carousel → Carousel} (h : f (s.carousel k) = g (s.carousel k)) :
    s.modCarousel k f = s.modCarousel k g := by
  unfold State.modCarousel
  rw [modSlot_congr Carousel.atReset (f := f) (g := g) h]

theorem leaves_spread {r : Play} (h : r.roundMark = false) (s : State) : leaves p r s = s := by
  unfold leaves
  rw [h]
  rfl

theorem ended_modLink_comm (p q : Nat) (f : LinkContext → LinkContext) (s : State) : (s.ended p).modLink q f = (s.modLink q f).ended p := rfl

theorem fault_modLink_comm (g : Source) (k : EventKind) (n d p q c : Nat) (h : Carousel → Carousel) (f : LinkContext → LinkContext) (s : State) :
    (raise g k n d ((s.ended p).modCarousel c h)).modLink q f = raise g k n d (((s.modLink q f).ended p).modCarousel c h) := rfl

/-- Settles O49, by the clip report's kind. -/
theorem clipReportsMoveTheZone : Obligations.ClipReportsMoveTheZone := by
  unfold Obligations.ClipReportsMoveTheZone
  intro p blank token clip cue s hs q body report after ended window live hb zone
  have link : ∀ f : LinkContext → LinkContext, f = (fun l => { l with window := none, missRun := 0, reportedBlank := some (decide (blank = 1)) }) →
      s.modLink q f = after := fun f hf => by rw [hf]
  have linked : (s.modLink q fun l => { l with window := none, missRun := 0 }).modLink q
      (fun l => { l with reportedBlank := some (decide (blank = 1)) }) = after := modLink_modLink ..
  have settled : ∀ u : State, u.outbox = s.outbox → u.journalBox = s.journalBox → settle u = u := fun u h1 h2 =>
    settle_settled ⟨h1.trans hs.1, h2.trans hs.2⟩
  obtain ⟨u, hu⟩ : ∃ u, u = s.modLink q fun l => { l with window := none, missRun := 0 } := ⟨_, rfl⟩
  have run : ∀ c, clipReportOf clip = some c →
      exec report s = .next (settle ((clipReport q token.toNat c u).modLink q fun l => { l with reportedBlank := some (decide (blank = 1)) })) :=
    fun c hc => by rw [hu]; exact exec_status window live hb hc
  have uzone : (u.panel q).zone = (s.panel q).zone := by rw [hu]; rfl
  refine ⟨fun other known => ?_, fun own started d cued => ?_, fun own started d playing => ?_, fun own r play spread => ⟨fun completed => ?_, ?_⟩⟩
  · obtain ⟨c, hc⟩ := clipReportOf_known known
    rw [run c hc, clipReport_other (by rw [uzone]; exact zone) other, hu, linked]
    exact congrArg _ (settled _ rfl rfl)
  · rw [run .started (by rw [started]; rfl), ← own, clipReport_started (by rw [uzone]; exact cued), hu, modLink_modPanel_comm, linked]
    exact congrArg _ (settled _ rfl rfl)
  · rw [run .started (by rw [started]; rfl), ← own, clipReport_started_again (by rw [uzone]; exact playing), hu, linked]
    exact congrArg _ (settled _ rfl rfl)
  · have ends := (clipReport_ends (s := u) (by rw [uzone]; exact zone)).1
    have play' : u.play? q = some r := by rw [hu]; exact play
    rw [run .completed (by rw [completed]; rfl), ← own, ends,
      endPlay_play (by rw [uzone]; exact Zone.busy_of_cue zone) play', leaves_spread spread]
    show Host.Outcome.next (settle ((u.ended q).modLink q fun l => { l with reportedBlank := some (decide (blank = 1)) })) = _
    rw [ended_modLink_comm, hu, linked]
    exact congrArg _ (settled _ rfl rfl)
  · intro fault source kind i e ref entry code marked
    have ends := (clipReport_ends (s := u) (by rw [uzone]; exact zone)).2
    have play' : u.play? q = some r := by rw [hu]; exact play
    have ring : ((u.ended q).carousel r.carousel).ring[i]? = some e := by rw [hu]; exact entry
    have faulted := Carousel.afterFault_entry source ref ring
    rw [Entry.afterFault_eq kind] at faulted
    rw [run .fault (by rw [fault]; rfl), ← own, ends,
      endPlay_play (by rw [uzone]; exact Zone.busy_of_cue zone) play', leaves_spread spread]
    unfold PlayOutcome.effect
    dsimp only
    rw [faulted]
    have changed : (u.ended q).modCarousel r.carousel (fun _ =>
        { (u.ended q).carousel r.carousel with ring := ((u.ended q).carousel r.carousel).ring.set i marked }) =
        (u.ended q).modCarousel r.carousel fun c => { c with ring := c.ring.set i marked } := modCarousel_congr rfl
    have whole : (raise (.play q) .clipFault r.carousel (r.clip + 4096 * code) ((u.ended q).modCarousel r.carousel fun _ =>
        { (u.ended q).carousel r.carousel with ring := ((u.ended q).carousel r.carousel).ring.set i marked })).modLink q
          (fun l => { l with reportedBlank := some (decide (blank = 1)) }) =
        raise (.play q) .clipFault r.carousel (r.clip + 4096 * code)
          (ended.modCarousel r.carousel fun c => { c with ring := c.ring.set i marked }) := by
      rw [changed, fault_modLink_comm, hu, linked]
      rfl
    exact congrArg Host.Outcome.next ((congrArg settle whole).trans
      (settle_raise (.play q) .clipFault r.carousel (r.clip + 4096 * code)
        (s := ended.modCarousel r.carousel fun c => { c with ring := c.ring.set i marked }) hs))

end Sys2Proof.Machine
end

section
/-! PROOFS about the identity of a head (R162, R165 to R169). -/

namespace Sys2Proof.Machine

variable {s t : State} {p : Nat}

/-! ### What an identity raises -/

/-- The board with records raised by one source. -/
def raiseAll (g : Source) (l : List EventRecord) (s : State) : State := { s with outbox := s.outbox ++ l.map (Prod.mk g) }

theorem raiseAll_nil (g : Source) (s : State) : raiseAll g [] s = s := by
  unfold raiseAll
  rw [List.map_nil, List.append_nil]

theorem raiseAll_raiseAll (g : Source) (l m : List EventRecord) (s : State) : raiseAll g m (raiseAll g l s) = raiseAll g (l ++ m) s := by
  unfold raiseAll
  simp only [List.map_append, List.append_assoc]

theorem raise_eq_raiseAll (g : Source) (k : EventKind) (n d : Nat) (s : State) : raise g k n d s = raiseAll g [s.record k n d] s := rfl

theorem raiseAll_modLink_comm (g : Source) (l : List EventRecord) (p : Nat) (f : LinkContext → LinkContext) (s : State) :
    (raiseAll g l s).modLink p f = raiseAll g l (s.modLink p f) := rfl

/-- Which of R167's clamps apply: 1 for the rows, 2 for the zone. -/
def State.clampKind (s : State) (p : Nat) (i : Identity) : Nat :=
  (if s.rowsClamped p i.headRows then 1 else 0) + (if s.zoneDisabled p i.zone then 2 else 0)

/-- The records of a clamp judged (R167). -/
def State.clampRecords (s : State) (p : Nat) (i : Identity) : List EventRecord :=
  if s.clampKind p i = 0 then [] else [s.record .layoutClamped p (i.headRows + 256 * s.clampKind p i)]

/-- The records of a generation told (R168). -/
def State.generationRecords (s : State) (p : Nat) (before : LinkContext) (i : Identity) : List EventRecord :=
  if before.generationKnown ∧ before.generation ≠ i.generation then [s.record .panelState p (256 + i.generation)] else []

theorem judgeClamps_eq (p : Nat) (i : Identity) (s : State) : judgeClamps p i s = raiseAll (.link p) (s.clampRecords p i) s := by
  have judged : judgeClamps p i s =
      if s.clampKind p i = 0 then s else raise (.link p) .layoutClamped p (i.headRows + 256 * s.clampKind p i) s := rfl
  rw [judged]
  unfold State.clampRecords
  split
  · exact (raiseAll_nil _ s).symm
  · rfl

theorem tellGeneration_eq (p : Nat) (before : LinkContext) (i : Identity) (s : State) :
    tellGeneration p before i s = raiseAll (.link p) (s.generationRecords p before i) s := by
  unfold tellGeneration State.generationRecords
  split
  · rfl
  · exact (raiseAll_nil _ s).symm

/-- The records of an identity taken, in their order (R165, R167, R168, R169). -/
def State.identityRecords (s : State) (p : Nat) (i : Identity) : List EventRecord :=
  s.record .panelState p 2 :: (s.generationRecords p (s.link p) i ++ s.clampRecords p i)

/-- A link under the identity taken (R165). -/
def LinkContext.identified (l : LinkContext) (i : Identity) (blank : Bool) : LinkContext :=
  { l with
    head := .live, headRows := some i.headRows, zonePresent := some i.zone, generation := i.generation, generationKnown := true,
    missRun := 0, lostCount := 0, reportedBlank := some blank }

/-- An identity taken by a panel without a play (R165): the link, and the records. -/
theorem takeIdentity_bare {i : Identity} {r : Report} (idle : (s.panel p).zone = .idle) (play : s.play? p = none)
    (clip : r.clip = .none) (acks : r.acks = []) :
    takeIdentity p i r s = raiseAll (.link p) (s.identityRecords p i) (s.modLink p fun l => l.identified i r.blank) := by
  have lives : enterHead p .live (storeIdentity p i s) = entered p .live (storeIdentity p i s) := by
    rw [enterHead_keeps rfl]
    exact judgeMember_none play
  have stays : (if i.zone then entered p .live (storeIdentity p i s) else stopZone p (entered p .live (storeIdentity p i s))) =
      raiseAll (.link p) [s.record .panelState p 2] ((storeIdentity p i s).modLink p fun l => { l with head := .live }) := by
    rw [stopZone_idle (s := entered p .live (storeIdentity p i s)) idle, ite_self]
    rfl
  unfold takeIdentity takeStatus
  dsimp only
  rw [lives, stays, clip, acks, clipReport_none, List.foldl_nil, tellGeneration_eq, judgeClamps_eq, raiseAll_raiseAll, raiseAll_raiseAll,
    raiseAll_modLink_comm]
  unfold storeIdentity
  rw [modLink_modLink, modLink_modLink]
  rfl

/-- An arrival whose records have one source. -/
theorem settle_raiseAll {g : Source} {l : List EventRecord} (hs : s.Settled) : settle (raiseAll g l s) =
    { s with queues := l.foldl (offerAll s.ports) s.queues, choice := s.choice + l.length } := by
  obtain ⟨outbox, journal⟩ := hs
  have raised : (raiseAll g l s).outbox = l.map (Prod.mk g) := by
    show s.outbox ++ _ = _
    rw [outbox, List.nil_append]
  have source : ∀ x ∈ (raiseAll g l s).outbox, x.1 = g := by
    rw [raised]
    intro x hx
    obtain ⟨e, -, rfl⟩ := List.mem_map.mp hx
    rfl
  rw [settle_source source journal, raised, List.map_map, List.length_map, ← outbox]
  simp only [raiseAll, Function.comp_def, List.map_id']

/-! ### The report of an identity -/

/-- The identity that three bytes spell (spec/12). -/
def identityOf (rows zone gen : Byte) : Identity := { headRows := rows.toNat, zone := zone != 0#8, generation := gen.toNat }

/-- A good report with an identity section is handed to the head state (R160, R165, R166). -/
theorem exec_identity {p : Link} {k : FrameKind} {blank token rows zone gen : Byte} (window : (s.link (panelOf p)).window = some k)
    (hb : blank.toNat ≤ 1) (h1 : 1 ≤ rows.toNat) (h16 : rows.toNat ≤ 16) :
    exec (.headReport p (0xA5#8 :: withCrc [0, 9, 9, BitVec.ofNat 8 (panelOf p), blank, token, 0, 0, rows, zone, gen])) s =
      .next (settle (takeValid (panelOf p)
        (Report.mk (panelOf p) (decide (blank = 1)) token.toNat .none [] (some (identityOf rows zone gen))) (closeWindow (panelOf p) s))) := by
  have range := panelNumbers_range (panelOf_mem p)
  have read := readReport_status (acks := []) (kind := 9) (rest := [rows, zone, gen]) (i := some (identityOf rows zone gen))
    (token := token) range.2 hb (clip := 0) rfl (by simp) rfl
  have arrives := (arrived_withCrc (h := 0) (l := 9) (b := [9, BitVec.ofNat 8 (panelOf p), blank, token, 0, 0, rows, zone, gen])
    (by decide) (by decide) (show 9 = (Wire.half 0 9).toNat by decide)).trans (congrArg Arrived.complete read)
  refine congrArg Host.Outcome.next ((headReport_complete window arrives).trans (congrArg settle ?_))
  unfold judgeReport
  have inRange : ifPresent (fun i : Identity => i.headRows = 0 || 16 < i.headRows) (some (identityOf rows zone gen)) = false := by
    unfold ifPresent identityOf
    simp only [Bool.or_eq_false_iff, decide_eq_false_iff_not]
    omega
  rw [if_neg (by simp), if_neg (by rw [inRange]; simp), if_neg (by simp)]
  rfl

theorem takeValid_missing {r : Report} {i : Identity} (h : r.identity = some i) (missing : (s.link p).head = .seeking ∨ (s.link p).head = .lost) :
    takeValid p r s = takeIdentity p i r s := by
  unfold takeValid
  rcases missing with m | m <;> rw [m, h]

theorem takeValid_restart {r : Report} {i : Identity} (h : r.identity = some i) (present : (s.link p).head = .live ∨ (s.link p).head = .degraded) :
    takeValid p r s = takeIdentity p i r (enterHead p .seeking s) := by
  unfold takeValid
  rcases present with m | m <;> rw [m, h]

theorem Zone.idle_of {z : Zone} (h : z.busy = false) : z = .idle := by
  cases z with
  | idle => rfl
  | cued q d => cases h
  | playing q d => cases h

/-- A fitting zone without a head is IDLE and has no play (R120, R154). -/
theorem State.ZoneFits.headless (h : s.ZoneFits p) (missing : (s.link p).head.present = false) : (s.panel p).zone = .idle ∧ s.play? p = none := by
  have rest : (s.panel p).zone.busy = false := by
    rw [← Bool.not_eq_true]
    intro busy
    rw [h.head busy] at missing
    cases missing
  have none : (s.play? p).isSome = false := h.play.symm.trans rest
  exact ⟨Zone.idle_of rest, by simpa using none⟩

/-- A head that restarts empties its panel, and its play is at an end (R154, R166). -/
theorem enterHead_play {h : HeadState} (he : h.empties = true) (fits : (s.panel p).zone.busy = (s.play? p).isSome) (i : Nat) :
    (enterHead p h s).play? i = if i = p then none else s.play? i := by
  have read : (enterHead p h s).play? i = if i = p ∧ (s.panel p).zone.busy = true then none else s.play? i := by
    rw [enterHead_empties he]
    exact stopZone_play? p i (entered p h s)
  rw [read]
  by_cases e : i = p
  · subst e
    cases hb : (s.panel i).zone.busy with
    | true => simp
    | false =>
      rw [hb] at fits
      simp only [true_and, Bool.false_eq_true, if_false, if_true]
      simpa using fits.symm
  · simp [e]

theorem identityRecords_congr {u : State} (cal : u.cal = s.cal) (profile : (u.panel p).profile = (s.panel p).profile)
    (known : (u.link p).generationKnown = (s.link p).generationKnown) (generation : (u.link p).generation = (s.link p).generation)
    (i : Identity) : u.identityRecords p i = s.identityRecords p i := by
  unfold State.identityRecords State.generationRecords State.clampRecords State.clampKind State.rowsClamped State.zoneDisabled State.record
  rw [cal, profile, known, generation]

/-- The records of an identity spelled out (R165, R167, R168). -/
theorem identityRecords_eq (s : State) (p : Nat) (rows zone gen : Byte) : s.identityRecords p (identityOf rows zone gen) =
    s.record .panelState p 2 ::
      ((if (s.link p).generationKnown = true ∧ (s.link p).generation ≠ gen.toNat then [s.record .panelState p (256 + gen.toNat)] else [])
        ++ (if (if rows.toNat < (s.panel p).profile.rows then 1 else 0)
            + (if (s.panel p).profile.carousel ≠ 0 ∧ zone = 0 then 2 else 0) = 0 then []
          else [s.record .layoutClamped p (rows.toNat + 256 * ((if rows.toNat < (s.panel p).profile.rows then 1 else 0)
            + (if (s.panel p).profile.carousel ≠ 0 ∧ zone = 0 then 2 else 0)))])) := by
  have kind : s.clampKind p (identityOf rows zone gen) = (if rows.toNat < (s.panel p).profile.rows then 1 else 0)
      + (if (s.panel p).profile.carousel ≠ 0 ∧ zone = 0 then 2 else 0) := by
    unfold State.clampKind State.rowsClamped State.zoneDisabled identityOf
    refine congrArg₂ _ (if_congr decide_eq_true_iff rfl rfl) (if_congr ?_ rfl rfl)
    simp
  unfold State.identityRecords State.generationRecords State.clampRecords
  rw [kind]
  rfl

/-- A change of the carousels, the plays, the panels and the links alone. -/
def OnlyHeads (s t : State) : Prop :=
  t = { s with carousels := t.carousels, plays := t.plays, panels := t.panels, links := t.links }

theorem OnlyHeads.queued (h : OnlyHeads s t) (l : List EventRecord) :
    (l.foldl (offerAll t.ports) t.queues = l.foldl (offerAll s.ports) s.queues) ∧
    ∀ (q : PerPort PortQueue) (c : Nat), ({ t with queues := q, choice := c } : State) = { s with
      carousels := t.carousels
      plays := t.plays
      panels := t.panels
      links := t.links
      queues := q
      choice := c } := by
  unfold OnlyHeads at h
  rw [h]
  exact ⟨rfl, fun q c => rfl⟩

/-- A head that restarts (R166): the board between SEEKING and LIVE, its first record apart. -/
theorem restart_board {q : Nat} (place : 1 ≤ q ∧ q ≤ s.links.length)
    (fits : (s.panel q).zone.busy = (s.play? q).isSome) : ∃ w : State,
      enterHead q .seeking (closeWindow q s) = raiseAll (.link q) [s.record .panelState q 1] w ∧ OnlyHeads s w ∧
      w.link q = { s.link q with window := none, head := .seeking } ∧ (∀ i, i ≠ q → w.link i = s.link i) ∧
      w.links.length = s.links.length ∧
      (∀ i, w.panel i = if i = q then { s.panel q with zone := .idle, current := [] } else s.panel i) ∧
      ∀ i, w.play? i = if i = q then none else s.play? i := by
  have panel := fun i => enterHead_panel (h := .seeking) rfl q i (closeWindow q s)
  have play := fun i => enterHead_play (s := closeWindow q s) (h := .seeking) rfl fits i
  have started : entered q .seeking (closeWindow q s) =
      raiseAll (.link q) [s.record .panelState q 1] (s.modLink q fun l => { l with window := none, head := .seeking }) :=
    congrArg (raiseAll (.link q) [s.record .panelState q 1]) (modLink_modLink q (fun l => { l with window := none }) _ s)
  obtain ⟨cs, ps, qs, frame⟩ := enterHead_only q .seeking (closeWindow q s)
  rw [started] at frame
  rw [frame] at panel play ⊢
  exact ⟨{ s.modLink q fun l => { l with window := none, head := .seeking } with carousels := cs, plays := ps, panels := qs }, rfl, rfl,
    State.link_modLink place _, fun i hi => State.link_modLink_other hi _ s, modSlot_length _ _ _, panel, play⟩

/-- An identity taken by a head that restarts (R165, R166). -/
theorem restart_taken {q : Nat} {i : Identity} {r : Report} (hs : s.Settled) (place : 1 ≤ q ∧ q ≤ s.links.length)
    (fits : (s.panel q).zone.busy = (s.play? q).isSome) (clip : r.clip = .none) (acks : r.acks = []) : ∃ v : State, v.Settled ∧ OnlyHeads s v ∧
      settle (takeIdentity q i r (enterHead q .seeking (closeWindow q s))) =
        settle (raiseAll (.link q) (s.record .panelState q 1 :: s.identityRecords q i) v) ∧
      v.link q = ({ s.link q with window := none } : LinkContext).identified i r.blank ∧ (∀ j, j ≠ q → v.link j = s.link j) ∧
      (∀ j, v.panel j = if j = q then { s.panel q with zone := .idle, current := [] } else s.panel j) ∧
      ∀ j, v.play? j = if j = q then none else s.play? j := by
  obtain ⟨w, whole, only, link, others, size, panel, play⟩ := restart_board place fits
  have wplace : 1 ≤ q ∧ q ≤ w.links.length := by
    rw [size]
    exact place
  have bare := takeIdentity_bare (s := raiseAll (.link q) [s.record .panelState q 1] w) (p := q) (i := i) (r := r)
    (by show (w.panel q).zone = .idle; rw [panel, if_pos rfl]) (by show w.play? q = none; rw [play, if_pos rfl]) clip acks
  have named : (raiseAll (.link q) [s.record .panelState q 1] w).identityRecords q i = s.identityRecords q i := by
    have same : (raiseAll (.link q) [s.record .panelState q 1] w).link q = w.link q := rfl
    unfold OnlyHeads at only
    exact identityRecords_congr (by rw [only]; rfl) (by show (w.panel q).profile = _; rw [panel, if_pos rfl])
      (by rw [same, link]) (by rw [same, link]) i
  refine ⟨w.modLink q fun l => l.identified i r.blank, ?_, ?_, ?_, ?_, fun j hj => ?_, panel, play⟩
  · unfold OnlyHeads at only
    rw [only]
    exact hs
  · unfold OnlyHeads at only ⊢
    rw [only]
    rfl
  · rw [whole, bare, named, raiseAll_modLink_comm, raiseAll_raiseAll]
    rfl
  · rw [State.link_modLink wplace, link]
    rfl
  · rw [State.link_modLink_other hj]
    exact others j hj

/-- Settles O50: the identity is `takeIdentity_bare`, under a head that is missing already or that restarts. -/
theorem identityBringsTheHeadLive : Obligations.IdentityBringsTheHeadLive := by
  unfold Obligations.IdentityBringsTheHeadLive
  intro p k blank token rows zone gen s hs shape fits q l body window hb h1 h16 record clamps records taken
  have window : (s.link q).window = some k := window
  have run := exec_identity (token := token) (zone := zone) (gen := gen) window hb h1 h16
  have place : 1 ≤ q ∧ q ≤ s.links.length := State.link_in (s := s) (p := q) (by intro e; rw [e] at window; cases window)
  have link := closeWindow_link place
  have identified : ∀ x : LinkContext, x.nextFrame = l.nextFrame → x.window = none → x.lastBlank = l.lastBlank →
      x.checkFault = l.checkFault → x.timeoutFault = l.timeoutFault → x.identityFault = l.identityFault → x.lastFrame = l.lastFrame →
      x.identified (identityOf rows zone gen) (decide (blank = 1)) = taken := by
    intro x h1 h2 h3 h4 h5 h6 h7
    have mark : (zone != 0#8) = decide (zone ≠ 0) := by
      rw [decide_not]
      rfl
    unfold LinkContext.identified identityOf
    rw [h1, h2, h3, h4, h5, h6, h7, mark]
  refine ⟨fun missing => ?_, fun present => ?_⟩
  · obtain ⟨idle, play⟩ := fits.headless (by rcases missing with m | m <;> rw [m] <;> rfl)
    have named : (closeWindow q s).identityRecords q (identityOf rows zone gen) = records :=
      (identityRecords_congr (s := s) (u := closeWindow q s) rfl rfl (by rw [link]) (by rw [link]) _).trans (identityRecords_eq s q rows zone gen)
    have linked : (closeWindow q s).modLink q (fun l => l.identified (identityOf rows zone gen) (decide (blank = 1))) =
        s.modLink q fun _ => taken := by
      unfold closeWindow
      rw [modLink_modLink]
      exact modLink_congr (identified _ rfl rfl rfl rfl rfl rfl rfl)
    rw [run, takeValid_missing rfl (by rw [link]; exact missing), takeIdentity_bare (s := closeWindow q s) idle play rfl rfl, named]
    refine congrArg Host.Outcome.next ?_
    rw [linked]
    exact settle_raiseAll (s := s.modLink q fun _ => taken) hs
  · obtain ⟨v, vs, only, taken_eq, here, others, panel, play⟩ := restart_taken (i := identityOf rows zone gen)
      (r := Report.mk q (decide (blank = 1)) token.toNat .none [] (some (identityOf rows zone gen))) hs place fits.play rfl rfl
    have named : s.identityRecords q (identityOf rows zone gen) = records := identityRecords_eq s q rows zone gen
    rw [takeValid_restart rfl (by rw [link]; exact present), taken_eq, named, settle_raiseAll vs] at run
    obtain ⟨queues, frame⟩ := only.queued (record .panelState 1 :: records)
    refine ⟨_, run, here.trans (identified _ rfl rfl rfl rfl rfl rfl rfl), (panel q).trans (if_pos rfl), (play q).trans (if_pos rfl),
      fun i hi => ⟨others i hi, (panel i).trans (if_neg hi), (play i).trans (if_neg hi)⟩, queues, frame _ _⟩

end Sys2Proof.Machine
end

section
/-! PROOFS about SET PANEL (R138, R139, R170). -/

namespace Sys2Proof.Machine

variable {s t u : State} {p : Nat}

/-! ### What judging a panel leaves of it -/

/-- Beyond the zones' records alone, and on panel p the zone and the hushed mark alone; an IDLE zone stays so. -/
structure OnlyLight (p : Nat) (s t : State) : Prop where
  zones : OnlyZones s t
  others : ∀ i, i ≠ p → t.panel i = s.panel i
  panel : ∃ z h, t.panel p = { s.panel p with zone := z, hushed := h } ∧ ((s.panel p).zone = .idle → z = .idle)

theorem OnlyLight.refl (p : Nat) (s : State) : OnlyLight p s s := ⟨.refl s, fun _ _ => rfl, _, _, rfl, id⟩

theorem OnlyLight.trans (h : OnlyLight p s t) (k : OnlyLight p t u) : OnlyLight p s u := by
  obtain ⟨z, g, e, idle⟩ := h.panel
  obtain ⟨z', g', e', idle'⟩ := k.panel
  refine ⟨h.zones.trans k.zones, fun i hi => (k.others i hi).trans (h.others i hi), z', g', ?_, fun hz => idle' ?_⟩
  · rw [e', e]
  · rw [e]
    exact idle hz

theorem stopZone_light (p : Nat) (s : State) : OnlyLight p s (stopZone p s) :=
  ⟨stopZone_only p s, fun i hi => (stopZone_panel p i s).trans (if_neg hi), .idle, (s.panel p).hushed,
    (stopZone_panel p p s).trans (if_pos rfl), fun _ => rfl⟩

theorem judgeMember_light (p : Nat) (s : State) : OnlyLight p s (judgeMember p s) := by
  unfold judgeMember
  split
  · exact .refl p s
  · split
    · exact .refl p s
    · exact stopZone_light p s

theorem hushed_light (place : 1 ≤ p ∧ p ≤ s.panels.length) (due : Bool) : OnlyLight p s (s.modPanel p fun c => { c with hushed := due }) :=
  ⟨.modPanel p _ s, fun i hi => slot_modSlot_other _ _ s.panels p i hi, (s.panel p).zone, due,
    slot_modSlot_same _ (fun c : Panel => { c with hushed := due }) s.panels p place.1 place.2, id⟩

theorem judgeHush_light (place : 1 ≤ p ∧ p ≤ s.panels.length) : OnlyLight p s (judgeHush p s) := by
  unfold judgeHush
  refine (hushed_light place (s.hushDue p)).trans (OnlyLight.trans ?_ (judgeMember_light p _))
  split
  · exact stopZone_light p _
  · exact .refl p _

/-- An arrival that raised one record and changed the zones beyond it. -/
theorem settle_onlyZones (g : Source) (k : EventKind) (n d : Nat) (hs : s.Settled) (h : OnlyZones (raise g k n d s) t) : settle t =
    { t with queues := offerAll s.ports s.queues (s.record k n d), outbox := [], choice := s.choice + 1 } := by
  obtain ⟨cs, ps, qs, rfl⟩ := h
  refine settle_one (s := { raise g k n d s with carousels := cs, plays := ps, panels := qs }) (x := (g, s.record k n d)) ?_ hs.2
  show s.outbox ++ _ = _
  rw [hs.1]
  rfl

/-! ### SET PANEL -/

theorem layoutOf_eq (b : Byte) : layoutOf b = if b = 0 then .board else if b = 1 then .feature else if b = 2 then .desk else .notice :=
  if_congr (BitVec.toNat_inj (y := (0 : Byte))) rfl
    (if_congr (BitVec.toNat_inj (y := (1 : Byte))) rfl (if_congr (BitVec.toNat_inj (y := (2 : Byte))) rfl rfl))

/-- The profile that SET PANEL stores (R138). -/
theorem profileOf_eq (f : PanelFields) : profileOf f =
    { enabled := decide (f.enabled = 1),
      layout := if f.layout = 0 then .board else if f.layout = 1 then .feature else if f.layout = 2 then .desk else .notice,
      auditoriums := f.auditoriums, featureA := f.featureA.toNat, featureB := f.featureB.toNat,
      rows := max 1 (min 16 f.rows.toNat), pageDwell := max 3 (min 60 f.pageDwell.toNat),
      noticeDwell := max 3 (min 30 f.noticeDwell.toNat), carousel := f.carousel.toNat,
      alwaysLit := decide (f.alwaysLit = 1) } := by
  have one : ∀ b : Byte, decide (b.toNat = 1) = decide (b = 1) := fun b => decide_eq_decide.mpr (BitVec.toNat_inj (y := (1 : Byte)))
  unfold profileOf
  rw [layoutOf_eq, one, one]
  rfl

/-- What SET PANEL does to the board (R138, R139, R170). -/
def panelSet (f : PanelFields) (s : State) : State :=
  judgeMember f.panel.toNat (judgeHush f.panel.toNat (handEnabled (s.panel f.panel.toNat).profile.enabled (profileOf f).enabled
    f.panel.toNat (s.modPanel f.panel.toNat (Panel.withProfile (profileOf f)))))

theorem setPanel_done {f : PanelFields} (ok : panelMalformed f = false) :
    setPanel f s = (done (panelClamped f) (profileBytes f.panel.toNat (profileOf f)), panelSet f s) := by
  unfold setPanel
  rw [ok]
  rfl

theorem panelMalformed_false {f : PanelFields} (ok : panelMalformed f = false) : 1 ≤ f.panel.toNat ∧ f.panel.toNat ≤ 12 := by
  unfold panelMalformed panelBad at ok
  simp only [Bool.or_eq_false_iff, decide_eq_false_iff_not] at ok
  omega

/-- What a panel's new profile leaves, its link as it was (R139). -/
theorem judged_profile (hs : s.Settled) (place : 1 ≤ p ∧ p ≤ s.panels.length) (g : Panel → Panel) :
    ∃ u, settle (judgeMember p (judgeHush p (s.modPanel p g))) = u ∧
      (∃ z h, u.panel p = { g (s.panel p) with zone := z, hushed := h }) ∧ u.links = s.links ∧ (∀ i, i ≠ p → u.panel i = s.panel i) ∧
      u = { s with carousels := u.carousels, plays := u.plays, panels := u.panels, links := u.links, queues := u.queues, choice := u.choice } := by
  have size : 1 ≤ p ∧ p ≤ (s.modPanel p g).panels.length := by simpa [State.modPanel] using place
  have light := (judgeHush_light size).trans (judgeMember_light p _)
  have here : (s.modPanel p g).panel p = g (s.panel p) := slot_modSlot_same _ g s.panels p place.1 place.2
  obtain ⟨z, h, e, -⟩ := light.panel
  rw [here] at e
  have others : ∀ i, i ≠ p → (judgeMember p (judgeHush p (s.modPanel p g))).panel i = s.panel i := fun i hi =>
    (light.others i hi).trans (slot_modSlot_other _ g s.panels p i hi)
  obtain ⟨cs, ps, qs, frame⟩ := light.zones
  rw [frame] at e others ⊢
  refine ⟨_, settle_settled (s := { s.modPanel p g with carousels := cs, plays := ps, panels := qs }) hs, ⟨z, h, e⟩, rfl, others, rfl⟩

/-- What a panel's new profile and a head state that empties it leave (R139, R154, R170). -/
theorem judged_head {head : HeadState} (he : head.empties = true) (hs : s.Settled) (sized : s.Sized) (hp : 1 ≤ p ∧ p ≤ 12)
    (g : Panel → Panel) (l : LinkContext → LinkContext) :
    ∃ u, settle (judgeMember p (judgeHush p (enterHead p head ((s.modPanel p g).modLink p l)))) = u ∧
      (∃ h, u.panel p = { g (s.panel p) with zone := .idle, hushed := h, current := [] }) ∧
      u.link p = { l (s.link p) with head } ∧ (∀ i, i ≠ p → u.panel i = s.panel i ∧ u.link i = s.link i) ∧
      u = { s with carousels := u.carousels, plays := u.plays, panels := u.panels, links := u.links, queues := u.queues, choice := u.choice } := by
  have place : 1 ≤ p ∧ p ≤ s.panels.length := by
    rw [sized.panels]
    exact hp
  have linked : 1 ≤ p ∧ p ≤ s.links.length := by
    rw [sized.links]
    exact hp
  obtain ⟨v, hv⟩ : ∃ v, v = (s.modPanel p g).modLink p l := ⟨_, rfl⟩
  have vsized : v.Sized := by
    rw [hv]
    exact modLink_sized p l ⟨(modSlot_length _ _ _).trans sized.panels, sized.plays, sized.links⟩
  have vs : v.Settled := by rw [hv]; exact hs
  have vpanel : v.panel p = g (s.panel p) := by
    rw [hv]
    exact slot_modSlot_same _ g s.panels p place.1 place.2
  have vother : ∀ i, i ≠ p → v.panel i = s.panel i := fun i hi => by
    rw [hv]
    exact slot_modSlot_other _ g s.panels p i hi
  have entersPanel := fun i => enterHead_panel he p i v
  have size : (enterHead p head v).panels.length = s.panels.length := by
    rw [(enterHead_sized p head vsized).panels, sized.panels]
  have light := (judgeHush_light (s := enterHead p head v) (p := p) (by rw [size]; exact place)).trans (judgeMember_light p _)
  obtain ⟨z, h, e, idle⟩ := light.panel
  have here : (enterHead p head v).panel p = { g (s.panel p) with zone := .idle, current := [] } := by
    rw [entersPanel, if_pos rfl, vpanel]
  rw [here] at e idle
  obtain rfl := idle rfl
  have others : ∀ i, i ≠ p → (judgeMember p (judgeHush p (enterHead p head v))).panel i = s.panel i := fun i hi => by
    rw [light.others i hi, entersPanel, if_neg hi, vother i hi]
  have only := (enterHead_only p head v).trans light.zones
  have links : (judgeMember p (judgeHush p (enterHead p head v))).links = (s.modLink p fun x => { l x with head := head }).links := by
    obtain ⟨cs, ps, qs, frame⟩ := only
    rw [frame, hv]
    show ((s.modLink p l).modLink p fun x => { x with head := head }).links = _
    rw [modLink_modLink]
  have settles := settle_onlyZones (.link p) .panelState p head.code (s := v.modLink p fun x => { x with head := head }) vs only
  rw [← hv]
  refine ⟨_, settles, ⟨h, e⟩, (State.link_congr links p).trans (State.link_modLink linked _),
    fun i hi => ⟨others i hi, (State.link_congr links i).trans (State.link_modLink_other hi _ s)⟩, ?_⟩
  obtain ⟨cs, ps, qs, frame⟩ := only
  rw [frame, hv, ← hs.1]
  rfl

/-- Settles O43: the profile, then the head state of the change, by `judged_profile` and `judged_head`. -/
theorem setPanelStoresTheProfile : Obligations.SetPanelStoresTheProfile := by
  unfold Obligations.SetPanelStoresTheProfile
  intro t f s ht shape ok p old
  have settled := ht.settled
  obtain ⟨v, hv⟩ : ∃ v, v = heard t 15 s := ⟨_, rfl⟩
  have vs : v.Settled := by
    rw [hv]
    exact heard_settled t 15 settled
  have vpanels : v.panels = s.panels := by rw [hv, heard_panels t 15 settled]
  have vlinks : v.links = s.links := by rw [hv, heard_links t 15 settled]
  have vplays : v.plays = s.plays := by rw [hv, heard_plays t 15 settled]
  have sized : v.Sized := ⟨by rw [vpanels, shape.panels], by rw [vplays, shape.plays], by rw [vlinks, shape.links]⟩
  have range := panelMalformed_false ok
  have panel : ∀ i, v.panel i = s.panel i := fun i => by
    unfold State.panel
    rw [vpanels]
  have link : ∀ i, v.link i = s.link i := fun i => State.link_congr vlinks i
  have body := setPanel_done (s := v) ok
  rw [hv] at body
  have run := request_ends ht 15 96 body
  rw [← hv] at run
  rw [← hv]
  have profile := profileOf_eq f
  have enabled : (profileOf f).enabled = decide (f.enabled = 1) := by rw [profile]
  rw [← profile]
  unfold panelSet at run
  rw [panel] at run
  have on : f.enabled = 1 ↔ (profileOf f).enabled = true := by rw [enabled, decide_eq_true_iff]
  have off : f.enabled = 0 → (profileOf f).enabled = false := fun h => by rw [enabled, h]; rfl
  rw [← enabled]
  have now : v.core.now = s.core.now := by rw [hv, heard_core t 15 settled]
  have period : v.framePeriod = s.framePeriod := by rw [hv, heard_framePeriod t 15 settled]
  by_cases same : old.enabled = (profileOf f).enabled
  · have stays : handEnabled old.enabled (profileOf f).enabled p (v.modPanel p (Panel.withProfile (profileOf f))) =
        v.modPanel p (Panel.withProfile (profileOf f)) := by
      rw [same]
      cases (profileOf f).enabled <;> rfl
    obtain ⟨u, hu, ⟨z, h, e⟩, links, others, frame⟩ := judged_profile vs (by rw [sized.panels]; exact range) (Panel.withProfile (profileOf f))
    rw [stays, hu] at run
    rw [panel] at e
    rw [vlinks] at links
    refine ⟨u, ?_, by rw [e]; rfl, by rw [e]; rfl, by rw [e]; rfl, by rw [e]; rfl, by rw [e]; rfl, fun was is => ?_, fun was is => ?_,
      fun _ => ⟨State.link_congr links p, by rw [e]; rfl⟩, fun i hi => ⟨by rw [others i hi, panel], State.link_congr links i⟩, frame⟩
    · rw [e]
      exact run
    · rw [was, on.mp is] at same
      cases same
    · rw [was, off is] at same
      cases same
  · cases was : old.enabled with
    | false =>
      have is : (profileOf f).enabled = true := by
        rw [was] at same
        simpa using same
      obtain ⟨u, hu, ⟨h, e⟩, here, others, frame⟩ := judged_head (head := .seeking) rfl vs sized range (Panel.withProfile (profileOf f))
        fun l => { l with missRun := 0, nextFrame := some (v.core.now + v.framePeriod) }
      have turned : handEnabled old.enabled (profileOf f).enabled p (v.modPanel p (Panel.withProfile (profileOf f))) = enterHead p .seeking
          ((v.modPanel p (Panel.withProfile (profileOf f))).modLink p fun l => { l with missRun := 0, nextFrame := some (v.core.now + v.framePeriod) }) := by
        rw [was, is]
        rfl
      rw [turned, hu] at run
      rw [panel] at e
      rw [link, now, period] at here
      refine ⟨u, ?_, by rw [e]; rfl, by rw [e]; rfl, by rw [e]; rfl, by rw [e]; rfl, by rw [e]; rfl,
        fun _ _ => ⟨here, by rw [e], by rw [e]⟩, nofun, fun k => ?_, fun i hi => ?_, frame⟩
      · rw [e]
        exact run
      · rw [is] at k
        cases k
      · rw [← panel, ← link]
        exact others i hi
    | true =>
      have is : (profileOf f).enabled = false := by
        rw [was] at same
        simpa using same
      obtain ⟨u, hu, ⟨h, e⟩, here, others, frame⟩ := judged_head (head := .absent) rfl vs sized range (Panel.withProfile (profileOf f))
        fun l => { l with missRun := 0, lostCount := 0, nextFrame := none, window := none }
      have turned : handEnabled old.enabled (profileOf f).enabled p (v.modPanel p (Panel.withProfile (profileOf f))) = enterHead p .absent
          ((v.modPanel p (Panel.withProfile (profileOf f))).modLink p fun l =>
            { l with missRun := 0, lostCount := 0, nextFrame := none, window := none }) := by
        rw [was, is]
        rfl
      rw [turned, hu] at run
      rw [panel] at e
      rw [link] at here
      refine ⟨u, ?_, by rw [e]; rfl, by rw [e]; rfl, by rw [e]; rfl, by rw [e]; rfl, by rw [e]; rfl,
        nofun, fun _ _ => ⟨here, by rw [e], by rw [e]⟩, fun k => ?_, fun i hi => ?_, frame⟩
      · rw [e]
        exact run
      · rw [is] at k
        cases k
      · rw [← panel, ← link]
        exact others i hi

end Sys2Proof.Machine
end

section
/-! PROOFS about the body of a PAGE frame: what it depends on, and its sizes (R140, R143, R145, R152). -/

namespace Sys2Proof.Machine

variable {s t : State} {p : Nat}

/-! ### What a body depends on -/

/-- The two boards show the same on a page: they agree but for the carousels, the plays, the panels, the links and what is in
progress. -/
structure SamePage (s t : State) : Prop where
  catalogue : t.catalogue = s.catalogue
  showings : t.showings = s.showings
  notices : t.notices = s.notices
  watch : t.watch = s.watch
  figure : t.figure = s.figure
  cal : t.cal = s.cal

theorem SamePage.text (h : SamePage s t) (i : Nat) : t.text i = s.text i := by
  unfold State.text
  rw [h.catalogue]

theorem SamePage.auditorium (h : SamePage s t) (i : Nat) : t.auditorium i = s.auditorium i := by
  unfold State.auditorium
  rw [h.catalogue]

theorem SamePage.feature? (h : SamePage s t) (i : Nat) : t.feature? i = s.feature? i := by
  unfold State.feature?
  rw [h.catalogue]

theorem SamePage.notice? (h : SamePage s t) (i : Nat) : t.notice? i = s.notice? i := by
  unfold State.notice?
  rw [h.notices]

theorem SamePage.takeover (h : SamePage s t) (i : Nat) : t.takeover i = s.takeover i := State.takeover_congr (by rw [h.notices]) i

theorem SamePage.rowList (h : SamePage s t) (profile : (t.panel p).profile = (s.panel p).profile) : t.rowList p = s.rowList p := by
  unfold State.rowList
  rw [h.showings, profile]

theorem SamePage.stripOf (h : SamePage s t) : t.stripOf p = s.stripOf p := by
  unfold State.stripOf State.notice?
  rw [h.notices]

theorem SamePage.strip (h : SamePage s t) : t.strip p = s.strip p := by
  rw [strip_eq_stripOf, strip_eq_stripOf, h.stripOf]

theorem SamePage.textsOfRows (h : SamePage s t) (l : List Showing) : t.textsOfRows l = s.textsOfRows l := by
  unfold State.textsOfRows
  simp only [h.auditorium, h.feature?]

theorem SamePage.rowEntry (h : SamePage s t) {l : Layout} {x : Showing} {y : Row} (k : t.RowEntry l x y) : s.RowEntry l x y where
  showing := k.showing
  codes := k.codes
  auditorium := k.auditorium
  name := by
    rw [← h.auditorium, ← h.text]
    exact k.name
  feature f hf := k.feature f (by rw [h.feature?, hf])
  title := by
    rw [← h.text]
    exact k.title
  current := by
    rw [← h.watch, ← h.figure]
    exact k.current
  stale := by
    rw [← h.watch]
    exact k.stale
  suspended := by
    rw [← h.auditorium]
    exact k.suspended
  oversold := k.oversold

theorem SamePage.noticeEntry (h : SamePage s t) {n : Notice} {e : NoticePart} (k : t.NoticeEntry n e) : s.NoticeEntry n e where
  notice := k.notice
  revision i hi := by
    rw [← h.text]
    exact k.revision i hi
  on := k.on

theorem SamePage.textBlocks (h : SamePage s t) {marked own others rest : List Nat} {l : List TextBlock}
    (k : t.TextBlocks marked own others rest l) : s.TextBlocks marked own others rest l := by
  unfold State.TextBlocks at *
  simpa only [h.text] using k

theorem SamePage.normalForm (h : SamePage s t) (profile : (t.panel p).profile = (s.panel p).profile) {c : Panel} {r : Nat} {b : PageBody}
    (k : t.NormalForm p c r b) : s.NormalForm p c r b where
  rows := by
    rw [← h.rowList profile]
    exact k.rows.imp fun _ _ => h.rowEntry
  noShowings := by
    rw [← h.rowList profile]
    exact k.noShowings
  notice n hn := by
    obtain ⟨e, he, hk⟩ := k.notice n (by rw [h.stripOf, hn])
    exact ⟨e, he, h.noticeEntry hk⟩
  noNotice hn := k.noNotice (by rw [h.stripOf, hn])
  texts := by
    have texts := h.textBlocks k.texts
    simp only [h.rowList profile, h.stripOf, h.textsOfRows] at texts
    exact texts

theorem SamePage.takeoverForm (h : SamePage s t) (profile : (t.panel p).profile = (s.panel p).profile) {c : Panel} {n : Notice} {b : PageBody}
    (k : t.TakeoverForm p c n b) : s.TakeoverForm p c n b where
  rows := k.rows
  notice := by
    obtain ⟨e, he, hk⟩ := k.notice
    exact ⟨e, he, h.noticeEntry hk⟩
  texts := by
    have texts := h.textBlocks k.texts
    simp only [h.rowList profile, h.stripOf, h.textsOfRows] at texts
    exact texts

/-! ### The body -/

/-- The notice of a takeover (R145). -/
theorem takeoverNotice_iff {x : Notice} : s.takeoverNotice p = some x ↔ ∃ i, s.takeover p = some i ∧ s.notice? i = some x := by
  unfold State.takeoverNotice
  exact Option.bind_eq_some_iff

theorem body_takeover (s : State) (p : Nat) : (s.body p).takeover = true ↔ ∃ i x, s.takeover p = some i ∧ s.notice? i = some x := by
  unfold State.body
  cases h : s.takeoverNotice p with
  | none =>
    refine ⟨nofun, fun ⟨i, x, hi, hx⟩ => ?_⟩
    have some : s.takeoverNotice p = some x := takeoverNotice_iff.mpr ⟨i, hi, hx⟩
    rw [h] at some
    cases some
  | some x =>
    obtain ⟨i, hi, hx⟩ := takeoverNotice_iff.mp h
    exact ⟨fun _ => ⟨i, x, hi, hx⟩, fun _ => rfl⟩

theorem body_normal (h : (s.body p).takeover = false) : s.body p = s.normalBody p := by
  unfold State.body at *
  cases hn : s.takeoverNotice p with
  | none => rfl
  | some x =>
    rw [hn] at h
    cases h

theorem body_taken {i : Nat} {x : Notice} (hi : s.takeover p = some i) (hx : s.notice? i = some x) : s.body p = s.takeoverBody p x := by
  unfold State.body
  rw [takeoverNotice_iff.mpr ⟨i, hi, hx⟩]

/-- The sizes and the indexes of a body. -/
theorem body_fields (s : State) (p : Nat) :
    (s.body p).rows.length ≤ s.effectiveRows p ∧ (s.body p).texts.length ≤ 2 ∧ (s.body p).pageIndex = (s.panel p).pageIndex ∧
      (s.body p).pageCount = pageCountOf (s.rowList p).length (s.effectiveRows p) ∧ (s.body p).trailer = (s.panel p).zone.trailer := by
  have texts : ∀ marked groups, ((chooseTexts marked groups).map s.textBlock).length ≤ 2 := fun marked groups => by
    rw [List.length_map]
    exact List.length_take_le _ _
  unfold State.body
  cases s.takeoverNotice p with
  | none =>
    refine ⟨?_, texts _ _, rfl, rfl, rfl⟩
    exact (List.length_map _).trans_le (List.length_take_le _ _)
  | some x => exact ⟨Nat.zero_le _, texts _ _, rfl, rfl, rfl⟩

/-- A turned index names a place. -/
theorem turn_lt {index count dwell places : Nat} (h : 0 < places) : (turn index count dwell places).1 < places := by
  unfold turn
  dsimp only
  split <;> split <;> omega

theorem pageCountOf_eq (n r : Nat) : pageCountOf n r = max 1 ((n + r - 1) / r) := by
  unfold pageCountOf
  cases r with
  | zero => simp
  | succ r => rfl

end Sys2Proof.Machine
end

section
/-! PROOFS about the takes (R126, R127, R129, R130). -/

namespace Sys2Proof.Machine

variable {s t : State} {p k : Nat}

/-! ### Panels cued -/

/-- The token of a panel's next cue (R148). -/
def Panel.nextToken (c : Panel) : Nat := if c.lastToken = 255 then 1 else c.lastToken + 1

/-- A panel cued with a play (R148). -/
def Panel.cued (r : Play) (c : Panel) : Panel :=
  { c with lastToken := c.nextToken, zone := .cued { clip := r.clip, length := r.length, token := c.nextToken } none }

theorem modPanel_congr {f g : Panel → Panel} (h : f (s.panel p) = g (s.panel p)) : s.modPanel p f = s.modPanel p g := by
  unfold State.modPanel
  rw [modSlot_congr Panel.atReset (f := f) (g := g) h]

theorem cuePanel_eq (r : Play) (p : Nat) (s : State) : cuePanel r p s = (s.modPanel p (Panel.cued r)).setPlay p (some r) := by
  have panel : s.modPanel p (fun c => { c with
      lastToken := (s.panel p).nextToken, zone := .cued { clip := r.clip, length := r.length, token := (s.panel p).nextToken } none }) =
      s.modPanel p (Panel.cued r) := modPanel_congr rfl
  exact congrArg (State.setPlay p (some r)) panel

/-- What cueing a list of panels does to each (R129, R130). -/
theorem cuePanels_read (r : Play) {l : List Nat} (nodup : l.Nodup) (range : ∀ i ∈ l, 1 ≤ i ∧ i ≤ 12) {s : State}
    (panels : s.panels.length = 12) (plays : s.plays.length = 12) (i : Nat) :
    (l.foldl (fun t p => cuePanel r p t) s).play? i = (if i ∈ l then some r else s.play? i) ∧
      (l.foldl (fun t p => cuePanel r p t) s).panel i = if i ∈ l then (s.panel i).cued r else s.panel i := by
  induction l generalizing s with
  | nil => simp
  | cons p l ih =>
    obtain ⟨new, nodup⟩ := List.nodup_cons.mp nodup
    have hp := range p List.mem_cons_self
    have one := cuePanel_eq r p s
    have play : (cuePanel r p s).play? i = if i = p then some r else s.play? i := by
      rw [one]
      split
      next e => rw [e]; exact slot_modSlot_same _ _ s.plays p hp.1 (by rw [plays]; exact hp.2)
      next e => exact slot_modSlot_other _ _ s.plays p i e
    have panel : (cuePanel r p s).panel i = if i = p then (s.panel p).cued r else s.panel i := by
      rw [one]
      split
      next e => rw [e]; exact slot_modSlot_same _ _ s.panels p hp.1 (by rw [panels]; exact hp.2)
      next e => exact slot_modSlot_other _ _ s.panels p i e
    obtain ⟨plays', panels'⟩ := ih nodup (fun j hj => range j (List.mem_cons_of_mem _ hj)) (s := cuePanel r p s)
      (by rw [one]; exact (modSlot_length _ _ _).trans panels) (by rw [one]; exact (modSlot_length _ _ _).trans plays)
    rw [List.foldl_cons, plays', panels', play, panel]
    by_cases e : i = p
    · subst e
      simp [new]
    · simp [e]

theorem cuePanels_frame (r : Play) (l : List Nat) (s : State) :
    ∃ ps qs, l.foldl (fun t p => cuePanel r p t) s = { s with plays := ps, panels := qs } := by
  induction l generalizing s with
  | nil => exact ⟨s.plays, s.panels, rfl⟩
  | cons p l ih =>
    obtain ⟨ps, qs, e⟩ := ih (cuePanel r p s)
    exact ⟨ps, qs, by rw [List.foldl_cons, e]; rfl⟩

/-! ### A take -/

/-- The panels that a take cues: the panel itself, or in LOCKSTEP mode every member (R129, R130). -/
def State.takers (s : State) (k p : Nat) (lock : Bool) : List Nat := if lock then panelNumbers.filter (inSet (s.members k)) else [p]

/-- A carousel after a take that found what it found and cues what it cues (R127, R129, R130). -/
def Carousel.taken (found : Option (Nat × Entry)) (cue : Option Play) (lock : Bool) (members : PanelSet) (c : Carousel) : Carousel :=
  { c with
    outcome := outcomeOf found
    cursor := if lock then c.cursor else pastEntry (found.map Prod.fst) c.ring.length c.cursor
    round := if lock then cue.map fun x => { ref := x.ref, clip := x.clip, kind := x.kind, length := x.length, pending := members }
      else c.round }

/-- The board after a take, its panels not cued yet: the carousel, and CAROUSEL DRY (R127). -/
def State.tookFrom (s : State) (k p : Nat) (found : Option (Nat × Entry)) (c : Carousel) : State :=
  let t := s.modCarousel k fun _ => c
  if found.isNone ∧ (s.carousel k).outcome = .found then raise (.play p) .carouselDry k p t else t

/-- The panels cued, where there is a cue. -/
def cuePanels (cue : Option Play) (l : List Nat) (s : State) : State :=
  match cue with
  | some r => l.foldl (fun t p => cuePanel r p t) s
  | none => s

theorem modCarousel_modCarousel (k : Nat) (f g : Carousel → Carousel) (s : State) :
    (s.modCarousel k f).modCarousel k g = s.modCarousel k fun c => g (f c) := by
  unfold State.modCarousel
  rw [modSlot_modSlot]

theorem recordTake_modCarousel (k p : Nat) (found : Option (Nat × Entry)) (g : Carousel → Carousel) (s : State) :
    (recordTake k p found s).modCarousel k g = s.tookFrom k p found (g { s.carousel k with outcome := outcomeOf found }) := by
  have both : (s.modCarousel k fun c => { c with outcome := outcomeOf found }).modCarousel k g =
      s.modCarousel k fun _ => g { s.carousel k with outcome := outcomeOf found } :=
    (modCarousel_modCarousel k _ g s).trans (modCarousel_congr rfl)
  unfold recordTake State.tookFrom
  dsimp only
  split
  · exact congrArg (raise (.play p) .carouselDry k p) both
  · exact both

/-- What a take of a carousel cues (R126). -/
def State.cueAt (s : State) (k : Nat) (lock : Bool) : Option Play := cueOf k (s.carousel k) (s.scan (s.carousel k)) lock

/-- A take of a carousel at a panel, in SPREAD or in LOCKSTEP mode (R129, R130). -/
def takeOf (k p : Nat) (lock : Bool) (s : State) : State :=
  cuePanels (s.cueAt k lock) (s.takers k p lock) (s.tookFrom k p (s.scan (s.carousel k))
    ((s.carousel k).taken (s.scan (s.carousel k)) (s.cueAt k lock) lock (s.members k)))

theorem takeSpread_eq (k p : Nat) (s : State) : takeSpread k p s = takeOf k p false s := by
  have moved := recordTake_modCarousel k p (s.scan (s.carousel k))
    (fun c => { c with cursor := pastEntry ((s.scan (s.carousel k)).map Prod.fst) c.ring.length c.cursor }) s
  unfold takeSpread takeOf cuePanels State.cueAt
  dsimp only
  rw [moved]
  cases cueOf k (s.carousel k) (s.scan (s.carousel k)) false <;> rfl

theorem modCarousel_self (k : Nat) (s : State) : (s.modCarousel k fun c => c) = s := by
  have same : modSlot (fun c : Carousel => c) s.carousels k = s.carousels := by
    cases k with
    | zero => rfl
    | succ n => exact List.modify_id _ _
  unfold State.modCarousel
  rw [same]

theorem recordTake_members (k p : Nat) (found : Option (Nat × Entry)) (s : State) : (recordTake k p found s).members k = s.members k := by
  unfold recordTake
  dsimp only
  split <;> rfl

theorem takeLockstep_eq (p : Nat) (free : (s.carousel k).round = none) : takeLockstep k p s = takeOf k p true s := by
  unfold takeLockstep takeOf cuePanels State.cueAt
  dsimp only
  rw [free]
  dsimp only
  cases hc : cueOf k (s.carousel k) (s.scan (s.carousel k)) true with
  | none =>
    have recorded := recordTake_modCarousel k p (s.scan (s.carousel k)) (fun c => c) s
    rw [modCarousel_self] at recorded
    refine recorded.trans (congrArg (s.tookFrom k p _) ?_)
    unfold Carousel.taken
    rw [Option.map_none, if_pos rfl, if_pos rfl, ← free]
  | some r =>
    have recorded := recordTake_modCarousel k p (s.scan (s.carousel k)) (fun c => { c with
      round := some { ref := r.ref, clip := r.clip, kind := r.kind, length := r.length, pending := s.members k } }) s
    unfold startRound State.takers
    dsimp only
    rw [recordTake_members, recorded]
    rfl

/-- A take made or not (R129, R130). -/
theorem takeFor_eq (p : Nat) (s : State) {k : Nat} {lock : Bool} (hk : k = (s.panel p).profile.carousel)
    (hl : lock = decide ((s.carousel k).mode = .lockstep)) :
    takeFor p s = if s.member k p && !(lock && (s.carousel k).round.isSome) then takeOf k p lock s else s := by
  unfold takeFor
  dsimp only
  rw [← hk]
  cases s.member k p with
  | false => rfl
  | true =>
    rw [if_pos rfl]
    cases hm : (s.carousel k).mode with
    | spread =>
      rw [hm] at hl
      subst hl
      exact takeSpread_eq k p s
    | lockstep =>
      rw [hm] at hl
      subst hl
      cases hr : (s.carousel k).round with
      | none => exact takeLockstep_eq p hr
      | some x =>
        unfold takeLockstep
        dsimp only
        rw [hr]
        rfl

/-- What a take cues, spelled out (R126). -/
theorem cueOf_eq (k : Nat) (c : Carousel) (found : Option (Nat × Entry)) (lock : Bool) : cueOf k c found lock =
    match found, c.fallback with
    | some (i, e), _ => some
      { carousel := k, source := .entry, ref := some i, clip := if e.usingAlternate then e.alternate.getD e.primary else e.primary,
        kind := if e.usingAlternate && e.alternate.isSome then .alternate else .primary, length := e.length, roundMark := lock }
    | none, some f =>
      if c.usable then some
        { carousel := k, source := .fallback, ref := none, clip := f, kind := .fallback, length := c.fallbackLength, roundMark := lock }
      else none
    | none, none => none := by
  unfold cueOf
  cases found with
  | none => cases c.fallback <;> rfl
  | some x =>
    obtain ⟨i, e⟩ := x
    dsimp only
    cases e.usingAlternate <;> cases e.alternate <;> rfl

/-! ### What a take leaves -/

theorem takers_range (hp : 1 ≤ p ∧ p ≤ 12) (s : State) (k : Nat) (lock : Bool) :
    (s.takers k p lock).Nodup ∧ ∀ i ∈ s.takers k p lock, 1 ≤ i ∧ i ≤ 12 := by
  unfold State.takers
  cases lock with
  | false => exact ⟨by simp, by simpa using hp⟩
  | true => exact ⟨List.Nodup.filter _ (by decide), fun i hi => panelNumbers_range (List.mem_filter.mp hi).1⟩

theorem State.member_in (hs : s.links.length = 12) {i : Nat} (h : s.member k i = true) : i ∈ panelNumbers := by
  have present : s.link i ≠ LinkContext.atReset := by
    intro e
    unfold State.member at h
    rw [e] at h
    simp [LinkContext.atReset, HeadState.present] at h
  have := State.link_in present
  simp only [panelNumbers, List.mem_cons, List.not_mem_nil, or_false]
  omega

theorem mem_takers (hs : s.links.length = 12) (member : s.member k p = true) (lock : Bool) (i : Nat) :
    i ∈ s.takers k p lock ↔ i = p ∨ (lock = true ∧ s.member k i = true) := by
  unfold State.takers
  cases lock with
  | false => simp
  | true =>
    simp only [if_true, List.mem_filter, true_and]
    constructor
    · rintro ⟨hi, h⟩
      rw [State.members, inSet_setOf _ hi] at h
      exact .inr h
    · have inside : ∀ i, s.member k i = true → i ∈ panelNumbers ∧ inSet (s.members k) i = true := fun i h =>
        ⟨State.member_in hs h, by rw [State.members, inSet_setOf _ (State.member_in hs h)]; exact h⟩
      rintro (rfl | h)
      · exact inside _ member
      · exact inside _ h

/-- CAROUSEL DRY where FOUND becomes DRY (R127). -/
def State.dryRecords (s : State) (k p : Nat) (found : Option (Nat × Entry)) : List EventRecord :=
  if found.isNone ∧ (s.carousel k).outcome = .found then [s.record .carouselDry k p] else []

theorem tookFrom_eq (k p : Nat) (found : Option (Nat × Entry)) (c : Carousel) (s : State) :
    s.tookFrom k p found c = raiseAll (.play p) (s.dryRecords k p found) (s.modCarousel k fun _ => c) := by
  unfold State.tookFrom State.dryRecords
  dsimp only
  split
  · rfl
  · exact (raiseAll_nil _ _).symm

theorem cuePanels_onlyZones (cue : Option Play) (l : List Nat) (s : State) : ∃ ps qs, cuePanels cue l s = { s with plays := ps, panels := qs } := by
  cases cue with
  | none => exact ⟨s.plays, s.panels, rfl⟩
  | some r => exact cuePanels_frame r l s

/-- What a take leaves of the plays and the panels, and what it changes besides (R127, R129, R130). -/
theorem takeOf_effect (hp : 1 ≤ p ∧ p ≤ 12) (panels : s.panels.length = 12) (plays : s.plays.length = 12) (links : s.links.length = 12)
    (member : s.member k p = true) (lock : Bool) :
    (∃ ps qs, takeOf k p lock s = raiseAll (.play p) (s.dryRecords k p (s.scan (s.carousel k)))
      { s.modCarousel k (fun _ => (s.carousel k).taken (s.scan (s.carousel k)) (s.cueAt k lock) lock (s.members k)) with
        plays := ps, panels := qs }) ∧
    (∀ i, (takeOf k p lock s).play? i = match s.cueAt k lock with
      | some x => if i = p ∨ (lock = true ∧ s.member k i = true) then some x else s.play? i
      | none => s.play? i) ∧
    ∀ i, (takeOf k p lock s).panel i = match s.cueAt k lock with
      | some x => if i = p ∨ (lock = true ∧ s.member k i = true) then (s.panel i).cued x else s.panel i
      | none => s.panel i := by
  obtain ⟨w, hw⟩ : ∃ w, w = s.tookFrom k p (s.scan (s.carousel k))
    ((s.carousel k).taken (s.scan (s.carousel k)) (s.cueAt k lock) lock (s.members k)) := ⟨_, rfl⟩
  have raised := tookFrom_eq k p (s.scan (s.carousel k))
    ((s.carousel k).taken (s.scan (s.carousel k)) (s.cueAt k lock) lock (s.members k)) s
  have take : takeOf k p lock s = cuePanels (s.cueAt k lock) (s.takers k p lock) w := by rw [hw]; rfl
  have wpanels : w.panels = s.panels := by rw [hw, raised]; rfl
  have wplays : w.plays = s.plays := by rw [hw, raised]; rfl
  have panel : ∀ i, w.panel i = s.panel i := fun i => by
    unfold State.panel
    rw [wpanels]
  have play : ∀ i, w.play? i = s.play? i := fun i => by
    unfold State.play?
    rw [wplays]
  obtain ⟨nodup, range⟩ := takers_range hp s k lock
  refine ⟨?_, fun i => ?_, fun i => ?_⟩
  · obtain ⟨ps, qs, e⟩ := cuePanels_onlyZones (s.cueAt k lock) (s.takers k p lock) w
    refine ⟨ps, qs, ?_⟩
    rw [take, e, hw, raised]
    rfl
  · rw [take, ← play]
    unfold cuePanels
    cases s.cueAt k lock with
    | none => rfl
    | some x =>
      have read := (cuePanels_read x nodup range (s := w) (by rw [wpanels, panels]) (by rw [wplays, plays]) i).1
      refine read.trans (if_congr (mem_takers links member lock i) rfl rfl)
  · rw [take, ← panel]
    unfold cuePanels
    cases s.cueAt k lock with
    | none => rfl
    | some x =>
      have read := (cuePanels_read x nodup range (s := w) (by rw [wpanels, panels]) (by rw [wplays, plays]) i).2
      refine read.trans (if_congr (mem_takers links member lock i) rfl rfl)

end Sys2Proof.Machine
end

section
/-! PROOFS about the frame time of a present head (R140, R157, R158). -/

namespace Sys2Proof.Machine

variable {s t : State} {p k : Nat}

/-! ### The board at a composition -/

/-- A panel's indexes brought up to date over so many pages and strip notices (R143, R144). -/
def Panel.turned (pages strip : Nat) (c : Panel) : Panel :=
  { c with
    pageIndex := (turn c.pageIndex c.pageCount c.profile.pageDwell pages).1
    pageCount := (turn c.pageIndex c.pageCount c.profile.pageDwell pages).2
    noticeIndex := (turn c.noticeIndex c.noticeCount c.profile.noticeDwell strip).1
    noticeCount := (turn c.noticeIndex c.noticeCount c.profile.noticeDwell strip).2 }

theorem turnPanel_eq (p : Nat) (s : State) : turnPanel p s =
    s.modPanel p (Panel.turned (pageCountOf (s.rowList p).length (s.effectiveRows p)) (s.strip p).length) := rfl

/-- A zone in the first frame of its cue: the deadline starts (R148). -/
def Zone.started (now : Nat) : Zone → Zone
  | .cued q none => .cued q (some (now + 4000))
  | .cued q (some d) => .cued q (some d)
  | .playing q d => .playing q d
  | .idle => .idle

theorem firstCueFrame_eq (now p : Nat) (s : State) :
    firstCueFrame now p s = s.modPanel p fun c => { c with zone := c.zone.started now } := by
  refine modPanel_congr ?_
  rcases hz : (s.panel p).zone with _ | ⟨q, _ | d⟩ | ⟨q, d⟩ <;> dsimp only [Zone.started] <;> rw [← hz]

theorem frameAction_present {n : Nat} (present : (s.link p).head = .live ∨ (s.link p).head = .degraded) :
    frameAction n p s = sendFrame p (compose n p s).2 (compose n p s).1 := by
  unfold frameAction
  rcases present with h | h <;> rw [h]

/-- The board of a frame time, the core clock reached and the next frame time set (R157). -/
def State.atFrame (s : State) (n p : Nat) : State := (reach n s).modLink p fun l => { l with nextFrame := some (n + s.framePeriod) }

theorem atFrame_link (place : 1 ≤ p ∧ p ≤ s.links.length) (n i : Nat) : (s.atFrame n p).link i =
    if i = p then { s.link p with nextFrame := some (n + s.framePeriod) } else s.link i := by
  split
  next e => rw [e]; exact State.link_modLink (s := reach n s) place _
  next e => exact State.link_modLink_other e _ (reach n s)

/-- Membership does not look at a frame time, nor at a panel's indexes (R128). -/
theorem atFrame_member (place : 1 ≤ p ∧ p ≤ s.links.length) (size : p ≤ s.panels.length) (n pages strip k i : Nat) :
    ((s.atFrame n p).modPanel p (Panel.turned pages strip)).member k i = s.member k i := by
  have link : ((s.atFrame n p).modPanel p (Panel.turned pages strip)).link i = _ := atFrame_link place n i
  have panel : ((s.atFrame n p).modPanel p (Panel.turned pages strip)).panel i =
      if i = p then (s.panel p).turned pages strip else s.panel i := by
    split
    next e => rw [e]; exact slot_modSlot_same _ _ s.panels p place.1 size
    next e => exact slot_modSlot_other _ _ s.panels p i e
  unfold State.member
  rw [link, panel]
  split
  next e => rw [e]; rfl
  · rfl

/-- What a take at a composition looks at is what it would look at before (R124, R128). -/
theorem atFrame_take (place : 1 ≤ p ∧ p ≤ s.links.length) (size : p ≤ s.panels.length) (n pages strip k : Nat) (lock : Bool) :
    ((s.atFrame n p).modPanel p (Panel.turned pages strip)).carousel k = s.carousel k ∧
    (∀ c, ((s.atFrame n p).modPanel p (Panel.turned pages strip)).scan c = s.scan c) ∧
    ((s.atFrame n p).modPanel p (Panel.turned pages strip)).cueAt k lock = s.cueAt k lock ∧
    ((s.atFrame n p).modPanel p (Panel.turned pages strip)).members k = s.members k := by
  refine ⟨rfl, fun c => rfl, rfl, ?_⟩
  unfold State.members
  exact congrArg setOf (funext fun i => atFrame_member place size n pages strip k i)

/-- Whether a take is made at a panel's composition (R129, R130, R140). -/
def State.takesAt (s : State) (k p : Nat) (lock : Bool) : Bool :=
  decide ((s.panel p).zone = .idle) && s.member k p && !(lock && (s.carousel k).round.isSome)

theorem takeIfIdle_eq (p : Nat) (s : State) {k : Nat} {lock : Bool} (hk : k = (s.panel p).profile.carousel)
    (hl : lock = decide ((s.carousel k).mode = .lockstep)) :
    takeIfIdle p s = if s.takesAt k p lock then takeOf k p lock s else s := by
  have take := takeFor_eq p s hk hl
  unfold takeIfIdle State.takesAt
  cases hz : (s.panel p).zone with
  | idle => simpa using take
  | cued q d => simp
  | playing q d => simp

/-- Whether panel i is cued at a composition of panel p (R129, R130). -/
def State.cuesAt (s : State) (k p : Nat) (lock : Bool) (i : Nat) : Bool :=
  s.takesAt k p lock && (decide (i = p) || (lock && s.member k i))

/-- What a composition's take gives a panel (R148). -/
def Panel.cuedWith (cue : Option Play) (cues : Bool) (c : Panel) : Panel :=
  match cue with
  | some x => if cues then c.cued x else c
  | none => c

/-- The board at the composition of a frame, once the indexes are turned and the take is made (R140). -/
theorem takeIfIdle_effect {n pages strip k : Nat} {lock : Bool} (hp : 1 ≤ p ∧ p ≤ 12) (shape : s.Shape) (hk : k = (s.panel p).profile.carousel)
    (hl : lock = decide ((s.carousel k).mode = .lockstep)) :
    ∃ w, takeIfIdle p ((s.atFrame n p).modPanel p (Panel.turned pages strip)) = w ∧
    (∃ ps qs, w = raiseAll (.play p) (if s.takesAt k p lock then s.dryRecords k p (s.scan (s.carousel k)) else [])
      { s.atFrame n p with
        carousels := if s.takesAt k p lock then
            modSlot (fun _ => (s.carousel k).taken (s.scan (s.carousel k)) (s.cueAt k lock) lock (s.members k)) s.carousels k
          else s.carousels
        plays := ps
        panels := qs }) ∧
    (∀ i, w.play? i = match s.cueAt k lock with
      | some x => if s.cuesAt k p lock i then some x else s.play? i
      | none => s.play? i) ∧
    ∀ i, w.panel i = (if i = p then (s.panel p).turned pages strip else s.panel i).cuedWith (s.cueAt k lock) (s.cuesAt k p lock i) := by
  have place : 1 ≤ p ∧ p ≤ s.links.length := by rw [shape.links]; exact hp
  have size : p ≤ s.panels.length := by rw [shape.panels]; exact hp.2
  obtain ⟨u, hu⟩ : ∃ u, u = (s.atFrame n p).modPanel p (Panel.turned pages strip) := ⟨_, rfl⟩
  have upanel : ∀ i, u.panel i = if i = p then (s.panel p).turned pages strip else s.panel i := fun i => by
    rw [hu]
    split
    next e => rw [e]; exact slot_modSlot_same _ _ s.panels p place.1 size
    next e => exact slot_modSlot_other _ _ s.panels p i e
  have umember : ∀ i, u.member k i = s.member k i := fun i => by rw [hu]; exact atFrame_member place size n pages strip k i
  obtain ⟨ucarousel, uscan, ucue, umembers⟩ := atFrame_take (n := n) (pages := pages) (strip := strip) (k := k) (lock := lock) place size
  rw [← hu] at ucarousel uscan ucue umembers ⊢
  have takes : u.takesAt k p lock = s.takesAt k p lock := by
    unfold State.takesAt
    rw [upanel, if_pos rfl, umember, ucarousel]
    rfl
  have dry : u.dryRecords k p (s.scan (s.carousel k)) = s.dryRecords k p (s.scan (s.carousel k)) := by
    rw [hu]
    rfl
  rw [takeIfIdle_eq p u (k := k) (lock := lock) (by rw [upanel, if_pos rfl]; exact hk) (by rw [ucarousel]; exact hl), takes]
  unfold State.cuesAt
  refine ⟨_, rfl, ?_⟩
  cases ht : s.takesAt k p lock with
  | false =>
    refine ⟨⟨s.plays, u.panels, ?_⟩, fun i => ?_, fun i => ?_⟩
    · rw [if_neg Bool.false_ne_true, if_neg Bool.false_ne_true, if_neg Bool.false_ne_true, raiseAll_nil, hu]
      rfl
    · rw [if_neg Bool.false_ne_true, hu]
      cases s.cueAt k lock <;> rfl
    · rw [if_neg Bool.false_ne_true, upanel]
      cases s.cueAt k lock <;> rfl
  | true =>
    have member : u.member k p = true := by
      rw [umember]
      unfold State.takesAt at ht
      simp only [Bool.and_eq_true] at ht
      exact ht.1.2
    obtain ⟨⟨ps, qs, frame⟩, play, panel⟩ := takeOf_effect hp (s := u) (by rw [hu]; exact (modSlot_length _ _ _).trans shape.panels)
      (by rw [hu]; exact shape.plays) (by rw [hu]; exact (modSlot_length _ _ _).trans shape.links) member lock
    rw [ucarousel, uscan, ucue, umembers, dry] at frame
    rw [ucue] at play panel
    have among : ∀ i, (i = p ∨ lock = true ∧ u.member k i = true) ↔ (true && (decide (i = p) || lock && s.member k i)) = true := fun i => by
      rw [umember]
      simp
    refine ⟨⟨ps, qs, ?_⟩, fun i => ?_, fun i => ?_⟩
    · rw [if_pos rfl, if_pos rfl, if_pos rfl, frame, hu]
      rfl
    · rw [if_pos rfl, play, hu]
      cases s.cueAt k lock with
      | none => rfl
      | some x => exact if_congr (by rw [← hu]; exact among i) rfl rfl
    · rw [if_pos rfl, panel, upanel]
      cases s.cueAt k lock with
      | none => rfl
      | some x => exact if_congr (among i) rfl rfl

end Sys2Proof.Machine
end

section
/-! PROOFS about the PAGE frame of a present head: the frame time as a whole (R140, R157, R158). -/

namespace Sys2Proof.Machine

variable {s t : State} {p k : Nat}

/-- The link after a PAGE frame (R158, R159). -/
def LinkContext.paged (l : LinkContext) (h : FrameHeader) (b : PageBody) : LinkContext :=
  { l with window := some .page, lastBlank := some h.blank, lastFrame := some (.page h b) }

/-- The zone of a panel in the first frame of its cue (R148). -/
def Panel.started (now : Nat) (c : Panel) : Panel := { c with zone := c.zone.started now }

/-- The board that composes a frame, what its take raised apart. -/
def State.composing (s : State) (n p : Nat) (cs : List Carousel) (ps : List (Option Play)) (qs : List Panel) : State :=
  { s.atFrame n p with carousels := cs, plays := ps, panels := modSlot (Panel.started n) qs p }

theorem composing_links (s : State) (n p : Nat) (cs : List Carousel) (ps : List (Option Play)) (qs : List Panel) :
    (s.composing n p cs ps qs).links.length = s.links.length := modSlot_length _ s.links p

theorem firstCueFrame_composing {n : Nat} {w : State} {g : Source} {l : List EventRecord} {cs : List Carousel} {ps : List (Option Play)}
    {qs : List Panel} (h : w = raiseAll g l { s.atFrame n p with carousels := cs, plays := ps, panels := qs }) :
    firstCueFrame n p w = raiseAll g l (s.composing n p cs ps qs) := by
  rw [firstCueFrame_eq, h]
  rfl

/-- A PAGE frame sent, and the arrival at an end. -/
theorem settle_paged {n : Nat} {g : Source} {l : List EventRecord} {cs : List Carousel} {ps : List (Option Play)}
    {qs : List Panel} (hs : s.Settled) (h : FrameHeader) (b : PageBody) :
    settle (sendFrame p (.page h b) (raiseAll g l (s.composing n p cs ps qs))) =
      { (s.composing n p cs ps qs).modLink p (fun x => x.paged h b) with
        queues := l.foldl (offerAll s.ports) s.queues, choice := s.choice + l.length } :=
  settle_raiseAll (s := (s.composing n p cs ps qs).modLink p fun x => x.paged h b) hs

/-- A page does not show what a composition changes. -/
theorem composing_same (s : State) (n p : Nat) (g : Source) (l : List EventRecord) (cs : List Carousel) (ps : List (Option Play)) (qs : List Panel) :
    SamePage s (raiseAll g l (s.composing n p cs ps qs)) := ⟨rfl, rfl, rfl, rfl, rfl, rfl⟩

theorem atFrame_same (s : State) (n p : Nat) : SamePage s (s.atFrame n p) := ⟨rfl, rfl, rfl, rfl, rfl, rfl⟩

theorem effectiveRows_eq {r : Nat} (h : (s.link p).headRows = some r) : s.effectiveRows p = min (s.panel p).profile.rows r := by
  unfold State.effectiveRows
  rw [h]

theorem Panel.cuedWith_rest (cue : Option Play) (cues : Bool) (c : Panel) :
    c.cuedWith cue cues = { c with zone := (c.cuedWith cue cues).zone, lastToken := (c.cuedWith cue cues).lastToken } := by
  unfold Panel.cuedWith
  cases cue with
  | none => rfl
  | some x => cases cues <;> rfl

/-- A frame time of a present head: the board is `State.composing`, the frame its body (R140, R157, R158). -/
theorem frameTime_present {n r : Nat} {lock : Bool} (hp : 1 ≤ p ∧ p ≤ 12) (hs : s.Settled) (shape : s.Shape)
    (hk : k = (s.panel p).profile.carousel) (hl : lock = decide ((s.carousel k).mode = .lockstep))
    (present : (s.link p).head = .live ∨ (s.link p).head = .degraded) (next : (s.link p).nextFrame = some n)
    (rows : (s.link p).headRows = some r) :
    ∃ (ps : List (Option Play)) (qs : List Panel) (cs : List Carousel) (l : List EventRecord) (b : PageBody),
      let T := raiseAll (.play p) l (s.composing n p cs ps qs)
      cs = (if s.takesAt k p lock then
        modSlot (fun _ => (s.carousel k).taken (s.scan (s.carousel k)) (s.cueAt k lock) lock (s.members k)) s.carousels k else s.carousels) ∧
      l = (if s.takesAt k p lock then s.dryRecords k p (s.scan (s.carousel k)) else []) ∧
      b = T.body p ∧
      frameTime p s = { (s.composing n p cs ps qs).modLink p (fun x => x.paged (s.header p (s.panel p).hushed) b) with
        queues := l.foldl (offerAll s.ports) s.queues, choice := s.choice + l.length } ∧
      (∀ i, T.play? i = match s.cueAt k lock with
        | some x => if s.cuesAt k p lock i then some x else s.play? i
        | none => s.play? i) ∧
      (∀ i, i ≠ p → T.panel i = (s.panel i).cuedWith (s.cueAt k lock) (s.cuesAt k p lock i)) ∧
      T.panel p = (((s.panel p).turned (pageCountOf (s.rowList p).length (min (s.panel p).profile.rows r)) (s.strip p).length).cuedWith
        (s.cueAt k lock) (s.cuesAt k p lock p)).started n := by
  have place : 1 ≤ p ∧ p ≤ s.links.length := by rw [shape.links]; exact hp
  have link : (s.atFrame n p).link p = { s.link p with nextFrame := some (n + s.framePeriod) } := (atFrame_link place n p).trans (if_pos rfl)
  have list : (s.atFrame n p).rowList p = s.rowList p := (atFrame_same s n p).rowList rfl
  have size : (s.atFrame n p).effectiveRows p = min (s.panel p).profile.rows r := effectiveRows_eq (by rw [link]; exact rows)
  have strip : (s.atFrame n p).strip p = s.strip p := (atFrame_same s n p).strip
  obtain ⟨w, hw, ⟨ps, qs, frame⟩, play, panel⟩ := takeIfIdle_effect (n := n)
    (pages := pageCountOf (s.rowList p).length (min (s.panel p).profile.rows r)) (strip := (s.strip p).length) hp shape hk hl
  have turned : turnPanel p (s.atFrame n p) =
      (s.atFrame n p).modPanel p (Panel.turned (pageCountOf (s.rowList p).length (min (s.panel p).profile.rows r)) (s.strip p).length) := by
    rw [turnPanel_eq, list, size, strip]
  have composed := firstCueFrame_composing frame
  have started : ∀ i, (firstCueFrame n p w).panel i = if i = p then (w.panel p).started n else w.panel i := fun i => by
    rw [firstCueFrame_eq]
    exact State.panel_modPanel p i _ w rfl
  have tpanel : (firstCueFrame n p w).panel p = _ := (started p).trans (if_pos rfl)
  rw [panel, if_pos rfl] at tpanel
  have hushed : ((firstCueFrame n p w).panel p).hushed = (s.panel p).hushed := by
    rw [tpanel]
    unfold Panel.started
    rw [Panel.cuedWith_rest]
    rfl
  have run : frameTime p s = settle (sendFrame p (.page ((firstCueFrame n p w).header p ((firstCueFrame n p w).panel p).hushed)
      ((firstCueFrame n p w).body p)) (firstCueFrame n p w)) := by
    rw [frameTime_at next]
    show settle (frameAction n p (s.atFrame n p)) = _
    rw [frameAction_present (by rw [link]; exact present), ← hw, ← turned]
    rfl
  rw [hushed] at run
  refine ⟨ps, qs, _, _, _, rfl, rfl, rfl, ?_, fun i => ?_, fun i hi => ?_, ?_⟩
  · rw [run, composed]
    exact settle_paged hs _ _
  · have same : (firstCueFrame n p w).play? i = w.play? i := by
      rw [firstCueFrame_eq]
      rfl
    rw [← composed]
    exact same.trans (play i)
  · rw [← composed, started, if_neg hi, panel, if_neg hi]
  · rw [← composed]
    exact tpanel

theorem Zone.started_eq (now : Nat) (z : Zone) : z.started now =
    match z with
    | .cued x none => .cued x (some (now + 4000))
    | z => z := by
  rcases z with _ | ⟨q, _ | d⟩ | ⟨q, d⟩ <;> rfl

/-- A carousel named by a member is one of the eight (R128, R138). -/
theorem State.member_carousel (profiled : s.Profiled) (size : p ≤ s.panels.length) (hp : 1 ≤ p) (hk : k = (s.panel p).profile.carousel)
    (member : s.member k p = true) : 1 ≤ k ∧ k ≤ 8 := by
  have range := (profiled _ (slot_mem Panel.atReset hp size)).carousel
  unfold State.member at member
  simp only [Bool.and_eq_true, decide_eq_true_iff] at member
  refine ⟨by omega, ?_⟩
  rw [hk]
  exact range

/-- A carousel after a take, spelled out (R127, R129, R130). -/
theorem Carousel.taken_eq (found : Option (Nat × Entry)) (cue : Option Play) (lock : Bool) (members : PanelSet) (c : Carousel) :
    c.taken found cue lock members = { c with
      outcome := if found.isSome then .found else .dry
      cursor := match found with
        | some (i, _) => if lock then c.cursor else if i + 1 = c.ring.length then 0 else i + 1
        | none => c.cursor
      round :=
        if lock then cue.map fun x => { ref := x.ref, clip := x.clip, kind := x.kind, length := x.length, pending := members }
        else c.round } := by
  cases found with
  | none => cases lock <;> rfl
  | some x => cases lock <;> rfl

/-- What CAROUSEL DRY does to the queues (R127). -/
theorem dry_queues (takes : Bool) (k p : Nat) (found : Option (Nat × Entry)) (s : State) :
    (if takes then s.dryRecords k p found else []).foldl (offerAll s.ports) s.queues =
      if takes && found.isNone && decide ((s.carousel k).outcome = .found) then offerAll s.ports s.queues (s.record .carouselDry k p)
      else s.queues := by
  unfold State.dryRecords
  cases takes with
  | false => rfl
  | true =>
    cases found with
    | some x => rfl
    | none =>
      by_cases h : (s.carousel k).outcome = .found <;> simp [h]

/-- Settles O45: the frame time is `frameTime_present`; what the frame shows is the body of a board that shows what the page shows. -/
theorem frameTimeComposesAPage : Obligations.FrameTimeComposesAPage := by
  unfold Obligations.FrameTimeComposesAPage
  intro p n r s hs shape profiled q old rows pages k c lock takes found cue cues token present next headRows
  have hp := panelNumbers_range (panelOf_mem p)
  have place : 1 ≤ q ∧ q ≤ s.links.length := by rw [shape.links]; exact hp
  have cue_eq : cue = s.cueAt k lock := (cueOf_eq k c found lock).symm
  obtain ⟨ps, qs, cs, l, b, hcs, hl, hb, run, play, others, panel⟩ := frameTime_present hp hs shape (k := k) (lock := lock) rfl rfl present
    next headRows
  have same := composing_same s n q (.play q) l cs ps qs
  have profile : ((raiseAll (.play q) l (s.composing n q cs ps qs)).panel q).profile = old.profile := by
    rw [panel]
    unfold Panel.started
    rw [Panel.cuedWith_rest]
    rfl
  have pages_eq : pageCountOf (s.rowList q).length rows = pages := pageCountOf_eq _ _
  have link : (raiseAll (.play q) l (s.composing n q cs ps qs)).link q = { s.link q with nextFrame := some (n + s.framePeriod) } :=
    (atFrame_link place n q).trans (if_pos rfl)
  have size : (raiseAll (.play q) l (s.composing n q cs ps qs)).effectiveRows q = rows := by
    rw [effectiveRows_eq (by rw [link]; exact headRows), profile]
  have list := same.rowList profile
  obtain ⟨few, texts, index, count, trailer⟩ := body_fields (raiseAll (.play q) l (s.composing n q cs ps qs)) q
  have taken := body_takeover (raiseAll (.play q) l (s.composing n q cs ps qs)) q
  simp only [same.takeover, same.notice?] at taken
  rw [list, size, pages_eq] at count
  rw [size] at few
  change b = (raiseAll (.play q) l (s.composing n q cs ps qs)).body q at hb
  rw [← hb] at few texts index count trailer taken
  have fields := panel
  rw [pages_eq] at fields
  have pos : 0 < pages := by
    show 0 < max 1 _
    omega
  obtain ⟨T, hT⟩ : ∃ T, T = raiseAll (.play q) l (s.composing n q cs ps qs) := ⟨_, rfl⟩
  rw [← hT] at same profile index trailer fields play others hb size
  obtain ⟨t, ht⟩ : ∃ t : State, t = { (s.composing n q cs ps qs).modLink q (fun x => x.paged (s.header q old.hushed) b) with
    queues := l.foldl (offerAll s.ports) s.queues, choice := s.choice + l.length } := ⟨_, rfl⟩
  have tpanel : ∀ i, t.panel i = T.panel i := fun i => by rw [ht, hT]; rfl
  have tplay : ∀ i, t.play? i = T.play? i := fun i => by rw [ht, hT]; rfl
  have tlink : t.link q = ((s.composing n q cs ps qs).link q).paged (s.header q old.hushed) b := by
    rw [ht]
    exact State.link_modLink (s := s.composing n q cs ps qs) (by rw [composing_links]; exact place) _
  have tothers : ∀ i, i ≠ q → t.link i = s.link i := fun i hi => by
    rw [ht]
    exact (State.link_modLink_other hi _ (s.composing n q cs ps qs)).trans ((atFrame_link place n i).trans (if_neg hi))
  have tcarousels : t.carousels = cs := by rw [ht]; rfl
  have tqueues : t.queues = l.foldl (offerAll s.ports) s.queues := by rw [ht]
  have whole : t = { s with
      core := { s.core with now := max s.core.now n }
      carousels := t.carousels
      plays := t.plays
      panels := t.panels
      links := t.links
      queues := t.queues
      choice := t.choice } := by
    rw [ht]
    rfl
  have run : exec (.frameTime p) s = .next t := by
    rw [ht]
    exact congrArg Host.Outcome.next run
  have turned : T.panel q = { ((old.turned pages (s.strip q).length).cuedWith (s.cueAt k lock) (s.cuesAt k q lock q)) with
      zone := ((old.turned pages (s.strip q).length).cuedWith (s.cueAt k lock) (s.cuesAt k q lock q)).zone.started n } := fields
  have pageIndex : (T.panel q).pageIndex = (turn old.pageIndex old.pageCount old.profile.pageDwell pages).1 := by
    rw [turned, Panel.cuedWith_rest]
    rfl
  have pageCount : (T.panel q).pageCount = (turn old.pageIndex old.pageCount old.profile.pageDwell pages).2 := by
    rw [turned, Panel.cuedWith_rest]
    rfl
  have noticeIndex : (T.panel q).noticeIndex = (turn old.noticeIndex old.noticeCount old.profile.noticeDwell (s.strip q).length).1 := by
    rw [turned, Panel.cuedWith_rest]
    rfl
  have noticeCount : (T.panel q).noticeCount = (turn old.noticeIndex old.noticeCount old.profile.noticeDwell (s.strip q).length).2 := by
    rw [turned, Panel.cuedWith_rest]
    rfl
  clear_value cue
  subst cue_eq
  refine ⟨t, b, run, ?_, taken, fun normal => ?_, fun i x hi hx => ?_, few, texts, ?_, ?_, count, ?_, ?_, ?_, tothers, fun i => ?_,
    fun i hi => ?_, fun x hx takes1 => ?_, fun none => ?_, ?_, fun i hi => ?_, fun idle => ?_, fun takes1 => ?_, ?_, whole⟩
  · have here : (s.composing n q cs ps qs).link q = { s.link q with nextFrame := some (n + s.framePeriod) } :=
      (atFrame_link place n q).trans (if_pos rfl)
    rw [tlink, here]
    rfl
  · rw [tpanel, hb, body_normal (by rw [← hb]; exact normal), ← size]
    exact same.normalForm profile (normalBody_form T q)
  · rw [tpanel, hb, body_taken (by rw [same.takeover]; exact hi) (by rw [same.notice?]; exact hx)]
    exact same.takeoverForm profile (takeoverBody_form T q x)
  · rw [tpanel]
    exact index
  · rw [index, count, pageIndex]
    exact turn_lt pos
  · rw [tpanel]
    exact trailer
  · rw [tpanel, pageIndex, pageCount]
    exact turn_turned _ _ _ _
  · rw [tpanel, noticeIndex, noticeCount, ← strip_eq_stripOf]
    exact turn_turned _ _ _ _
  · rw [tplay]
    exact play i
  · rw [tpanel, others i hi]
    unfold Panel.cuedWith
    cases s.cueAt k lock <;> rfl
  · have cuesq : s.cuesAt k q lock q = true := by
      unfold State.cuesAt
      rw [show s.takesAt k q lock = true from takes1]
      simp
    rw [tpanel, turned, hx, cuesq]
    exact ⟨rfl, rfl⟩
  · have kept : (old.turned pages (s.strip q).length).cuedWith (s.cueAt k lock) (s.cuesAt k q lock q) =
        old.turned pages (s.strip q).length := by
      rcases none with none | none
      · rw [none]
        rfl
      · have off : s.cuesAt k q lock q = false := by
          unfold State.cuesAt
          rw [show s.takesAt k q lock = false from none]
          rfl
        rw [off]
        cases s.cueAt k lock <;> rfl
    rw [tpanel, turned, kept]
    exact ⟨rfl, Zone.started_eq n old.zone⟩
  · rw [tpanel, turned, Panel.cuedWith_rest]
    rfl
  · unfold State.carousel
    rw [tcarousels, hcs]
    split
    · exact slot_modSlot_other _ _ s.carousels k i hi
    · rfl
  · unfold State.carousel
    rw [tcarousels, hcs, if_neg (by rw [show s.takesAt k q lock = false from idle]; exact Bool.false_ne_true)]
    rfl
  · have member : s.member k q = true := by
      have := takes1
      simp only [takes, Bool.and_eq_true] at this
      exact this.1.2
    have range := State.member_carousel profiled (by rw [shape.panels]; exact hp.2) hp.1 rfl member
    unfold State.carousel
    rw [tcarousels, hcs, if_pos (show s.takesAt k (panelOf p) lock = true from takes1), slot_modSlot_same _ _ s.carousels k range.1 (by rw [shape.carousels]; exact range.2)]
    exact Carousel.taken_eq found _ lock _ c
  · rw [tqueues, hl]
    exact dry_queues takes k q found s

end Sys2Proof.Machine
end

section
/-! PROOFS about the wire form of a host message: what a request's bytes spell (R175, R191, R192). -/

namespace Sys2Proof.Wire

open Sys2Proof.Machine

variable {b : Bool} {r : List Byte}

/-! ### Optional fields -/

theorem optByte_bytes {o : Option Byte} (h : b = o.isSome) (r : List Byte) : optByte b (optBytes byteBytes o ++ r) = some (o, r) := by
  subst h
  cases o <;> rfl

theorem optHalf_bytes {o : Option Half} (h : b = o.isSome) (r : List Byte) : optHalf b (optBytes halfBytes o ++ r) = some (o, r) := by
  subst h
  cases o with
  | none => rfl
  | some x =>
    show some (some (half (hiByte x) (loByte x)), r) = _
    rw [half_hiByte_loByte]

theorem optRel_bytes {o : Option RelTime} (h : b = o.isSome) (r : List Byte) : optRel b (optBytes relBytes o ++ r) = some (o, r) := by
  subst h
  cases o with
  | none => rfl
  | some x =>
    show some (some (RelTime.mk x.day (half (hiByte x.minute) (loByte x.minute))), r) = _
    rw [half_hiByte_loByte]

theorem optFlash_bytes {o : Option (Byte × Byte)} (h : b = o.isSome) (r : List Byte) :
    optFlash b (optBytes (fun x : Byte × Byte => [x.1, x.2]) o ++ r) = some (o, r) := by
  subst h
  cases o <;> rfl

theorem optWindow_bytes {o : Option (Half × Half)} (h : b = o.isSome) (r : List Byte) :
    optWindow b (optBytes (fun x : Half × Half => halfBytes x.1 ++ halfBytes x.2) o ++ r) = some (o, r) := by
  subst h
  cases o with
  | none => rfl
  | some x =>
    show some (some (half (hiByte x.1) (loByte x.1), half (hiByte x.2) (loByte x.2)), r) = _
    rw [half_hiByte_loByte, half_hiByte_loByte]

/-- A field read, and the reading goes on. -/
theorem bind_read {α β : Type} {o : Option α} {a : α} (h : o = some a) (k : α → Option β) : (o >>= k) = k a := by
  rw [h]
  rfl

/-! ### Presence bits -/

/-- The presence bits below a field (R191). -/
theorem getLsbD_append_bit {α : Type} {w : Nat} (x : BitVec w) (o : Option α) (i : Nat) :
    (x ++ bit o).getLsbD i = if i = 0 then o.isSome else x.getLsbD (i - 1) := by
  rw [BitVec.getLsbD_append]
  cases i with
  | zero => simp [bit]
  | succ i => simp

theorem getLsbD_append_bit_zero {α : Type} {w : Nat} (x : BitVec w) (o : Option α) : (x ++ bit o).getLsbD 0 = o.isSome :=
  (getLsbD_append_bit x o 0).trans (if_pos rfl)

theorem getLsbD_append_bit_succ {α : Type} {w : Nat} (x : BitVec w) (o : Option α) (i : Nat) :
    (x ++ bit o).getLsbD (i + 1) = x.getLsbD i :=
  (getLsbD_append_bit x o (i + 1)).trans (if_neg (by omega))

theorem extractLsb'_append_bit {α : Type} {w : Nat} (x : BitVec w) (o : Option α) (n k : Nat) :
    (x ++ bit o).extractLsb' (n + 1) k = x.extractLsb' n k := by
  refine BitVec.eq_of_getLsbD_eq fun i hi => ?_
  rw [BitVec.getLsbD_extractLsb', BitVec.getLsbD_extractLsb', getLsbD_append_bit, if_neg (by omega)]
  congr 2
  omega

theorem extractLsb'_zero_self {w : Nat} (x : BitVec w) : x.extractLsb' 0 w = x := BitVec.extractLsb'_eq_self

/-! ### The requests with optional fields -/

/-- The presence bits of SET BOARD (R191). -/
def boardMask (f : BoardFields) : Half :=
  f.spare ++ bit f.frame ++ bit f.watch ++ bit f.dc ++ bit f.k ++ bit f.w ++ bit f.f2 ++ bit f.f1 ++ bit f.linger
    ++ bit f.late ++ bit f.lead ++ bit f.closeMin ++ bit f.openMin ++ bit f.h0

theorem boardMask_low (f : BoardFields) :
    (boardMask f).getLsbD 0 = f.h0.isSome ∧ (boardMask f).getLsbD 1 = f.openMin.isSome ∧
      (boardMask f).getLsbD 2 = f.closeMin.isSome ∧ (boardMask f).getLsbD 3 = f.lead.isSome ∧
      (boardMask f).getLsbD 4 = f.late.isSome ∧ (boardMask f).getLsbD 5 = f.linger.isSome ∧ (boardMask f).getLsbD 6 = f.f1.isSome := by
  refine ⟨?_, ?_, ?_, ?_, ?_, ?_, ?_⟩ <;> simp only [boardMask, getLsbD_append_bit_zero, getLsbD_append_bit_succ]

theorem boardMask_high (f : BoardFields) :
    (boardMask f).getLsbD 7 = f.f2.isSome ∧ (boardMask f).getLsbD 8 = f.w.isSome ∧ (boardMask f).getLsbD 9 = f.k.isSome ∧
      (boardMask f).getLsbD 10 = f.dc.isSome ∧ (boardMask f).getLsbD 11 = f.watch.isSome ∧
      (boardMask f).getLsbD 12 = f.frame.isSome ∧ (boardMask f).extractLsb' 13 3 = f.spare := by
  refine ⟨?_, ?_, ?_, ?_, ?_, ?_, ?_⟩ <;>
    simp only [boardMask, getLsbD_append_bit_zero, getLsbD_append_bit_succ, extractLsb'_append_bit, extractLsb'_zero_self]

theorem readBoard_bytes (f : BoardFields) : readBoard (boardBytes f) = some f := by
  obtain ⟨b0, b1, b2, b3, b4, b5, b6⟩ := boardMask_low f
  obtain ⟨b7, b8, b9, b10, b11, b12, spare⟩ := boardMask_high f
  have bytes : boardBytes f = halfBytes (boardMask f) ++ (optBytes byteBytes f.h0 ++ (optBytes halfBytes f.openMin ++
      (optBytes halfBytes f.closeMin ++ (optBytes byteBytes f.lead ++ (optBytes byteBytes f.late ++ (optBytes byteBytes f.linger ++
      (optBytes halfBytes f.f1 ++ (optBytes halfBytes f.f2 ++ (optBytes byteBytes f.w ++ (optBytes byteBytes f.k ++
      (optBytes halfBytes f.dc ++ (optBytes halfBytes f.watch ++ (optBytes halfBytes f.frame ++ []))))))))))))) := by
    unfold boardBytes boardMask
    simp only [List.append_assoc, List.append_nil]
  rw [bytes]
  show readBoard (hiByte _ :: loByte _ :: _) = _
  unfold readBoard
  dsimp only
  rw [half_hiByte_loByte]
  refine (bind_read (optByte_bytes b0 _) _).trans <| (bind_read (optHalf_bytes b1 _) _).trans <|
    (bind_read (optHalf_bytes b2 _) _).trans <| (bind_read (optByte_bytes b3 _) _).trans <|
    (bind_read (optByte_bytes b4 _) _).trans <| (bind_read (optByte_bytes b5 _) _).trans <|
    (bind_read (optHalf_bytes b6 _) _).trans <| (bind_read (optHalf_bytes b7 _) _).trans <|
    (bind_read (optByte_bytes b8 _) _).trans <| (bind_read (optByte_bytes b9 _) _).trans <|
    (bind_read (optHalf_bytes b10 _) _).trans <| (bind_read (optHalf_bytes b11 _) _).trans <|
    (bind_read (optHalf_bytes b12 _) _).trans ?_
  dsimp only [whole]
  rw [spare]

/-- The four presence bits of a request whose fields are four (R191). -/
theorem mask_four {α β γ δ : Type} (x : BitVec 4) (d : Option δ) (c : Option γ) (b : Option β) (a : Option α) :
    (x ++ bit d ++ bit c ++ bit b ++ bit a).getLsbD 0 = a.isSome ∧ (x ++ bit d ++ bit c ++ bit b ++ bit a).getLsbD 1 = b.isSome ∧
      (x ++ bit d ++ bit c ++ bit b ++ bit a).getLsbD 2 = c.isSome ∧ (x ++ bit d ++ bit c ++ bit b ++ bit a).getLsbD 3 = d.isSome ∧
      (x ++ bit d ++ bit c ++ bit b ++ bit a).extractLsb' 4 4 = x := by
  refine ⟨?_, ?_, ?_, ?_, ?_⟩ <;>
    simp only [getLsbD_append_bit_zero, getLsbD_append_bit_succ, extractLsb'_append_bit, extractLsb'_zero_self]

theorem readPublish_bytes (f : PublishFields) : readPublish (publishBytes f) = some f := by
  obtain ⟨b0, b1, b2, b3, spare⟩ := mask_four f.spare f.salesOpen f.delay f.capacity f.runtime
  have bytes : publishBytes f = hiByte f.id :: loByte f.id :: f.auditorium :: f.feature :: f.format :: f.start.day ::
      hiByte f.start.minute :: loByte f.start.minute :: (f.spare ++ bit f.salesOpen ++ bit f.delay ++ bit f.capacity ++ bit f.runtime) ::
      (optBytes halfBytes f.runtime ++ (optBytes halfBytes f.capacity ++ (optBytes byteBytes f.delay ++
        (optBytes relBytes f.salesOpen ++ [])))) := by
    simp [publishBytes, halfBytes, relBytes]
  rw [bytes]
  unfold readPublish
  refine (bind_read (optHalf_bytes b0 _) _).trans <| (bind_read (optHalf_bytes b1 _) _).trans <|
    (bind_read (optByte_bytes b2 _) _).trans <| (bind_read (optRel_bytes b3 _) _).trans ?_
  dsimp only [whole]
  rw [spare, half_hiByte_loByte, half_hiByte_loByte]

theorem readMove_bytes (f : MoveFields) : readMove (moveBytes f) = some f := by
  obtain ⟨b0, b1, b2, b3, spare⟩ := mask_four f.spare f.salesOpen f.capacity f.start f.auditorium
  have bytes : moveBytes f = hiByte f.id :: loByte f.id ::
      (f.spare ++ bit f.salesOpen ++ bit f.capacity ++ bit f.start ++ bit f.auditorium) ::
      (optBytes byteBytes f.auditorium ++ (optBytes relBytes f.start ++ (optBytes halfBytes f.capacity ++
        (optBytes relBytes f.salesOpen ++ [])))) := by
    simp [moveBytes, halfBytes]
  rw [bytes]
  unfold readMove
  refine (bind_read (optByte_bytes b0 _) _).trans <| (bind_read (optRel_bytes b1 _) _).trans <|
    (bind_read (optHalf_bytes b2 _) _).trans <| (bind_read (optRel_bytes b3 _) _).trans ?_
  dsimp only [whole]
  rw [spare, half_hiByte_loByte]

/-- The presence bits of POST NOTICE (R191). -/
def noticeMask (f : NoticeFields) : Byte := f.spare ++ bit f.flash ++ bit f.expiry ++ bit f.activation ++ bit f.link ++ bit f.scope

theorem noticeMask_bits (f : NoticeFields) :
    (noticeMask f).getLsbD 0 = f.scope.isSome ∧ (noticeMask f).getLsbD 1 = f.link.isSome ∧ (noticeMask f).getLsbD 2 = f.activation.isSome ∧
      (noticeMask f).getLsbD 3 = f.expiry.isSome ∧ (noticeMask f).getLsbD 4 = f.flash.isSome ∧ (noticeMask f).extractLsb' 5 3 = f.spare := by
  refine ⟨?_, ?_, ?_, ?_, ?_, ?_⟩ <;>
    simp only [noticeMask, getLsbD_append_bit_zero, getLsbD_append_bit_succ, extractLsb'_append_bit, extractLsb'_zero_self]

theorem readNotice_bytes (f : NoticeFields) : readNotice (noticeBytes f) = some f := by
  obtain ⟨b0, b1, b2, b3, b4, spare⟩ := noticeMask_bits f
  have bytes : noticeBytes f = f.id :: f.cls :: f.selector :: hiByte f.value :: loByte f.value :: noticeMask f ::
      (optBytes halfBytes f.scope ++ (optBytes halfBytes f.link ++ (optBytes relBytes f.activation ++ (optBytes relBytes f.expiry ++
        (optBytes (fun x : Byte × Byte => [x.1, x.2]) f.flash ++ []))))) := by
    simp [noticeBytes, noticeMask, halfBytes]
  rw [bytes]
  unfold readNotice
  refine (bind_read (optHalf_bytes b0 _) _).trans <| (bind_read (optHalf_bytes b1 _) _).trans <|
    (bind_read (optRel_bytes b2 _) _).trans <| (bind_read (optRel_bytes b3 _) _).trans <|
    (bind_read (optFlash_bytes b4 _) _).trans ?_
  dsimp only [whole]
  rw [spare, half_hiByte_loByte]

/-- The presence bits of PUT ENTRY (R191). -/
def entryMask (f : EntryFields) : Byte := f.spare ++ bit f.daypart ++ bit f.feature ++ bit f.alternate

theorem entryMask_bits (f : EntryFields) :
    (entryMask f).getLsbD 0 = f.alternate.isSome ∧ (entryMask f).getLsbD 1 = f.feature.isSome ∧
      (entryMask f).getLsbD 2 = f.daypart.isSome ∧ (entryMask f).extractLsb' 3 5 = f.spare := by
  refine ⟨?_, ?_, ?_, ?_⟩ <;>
    simp only [entryMask, getLsbD_append_bit_zero, getLsbD_append_bit_succ, extractLsb'_append_bit, extractLsb'_zero_self]

theorem readEntry_bytes (f : EntryFields) : readEntry (entryBytes f) = some f := by
  obtain ⟨b0, b1, b2, spare⟩ := entryMask_bits f
  have bytes : entryBytes f = f.carousel :: f.placement :: f.position :: hiByte f.primary :: loByte f.primary ::
      hiByte f.length :: loByte f.length :: entryMask f ::
      (optBytes halfBytes f.alternate ++ (optBytes byteBytes f.feature ++
        (optBytes (fun x : Half × Half => halfBytes x.1 ++ halfBytes x.2) f.daypart ++ []))) := by
    simp [entryBytes, entryMask, halfBytes]
  rw [bytes]
  unfold readEntry
  refine (bind_read (optHalf_bytes b0 _) _).trans <| (bind_read (optByte_bytes b1 _) _).trans <|
    (bind_read (optWindow_bytes b2 _) _).trans ?_
  dsimp only [whole]
  rw [spare, half_hiByte_loByte, half_hiByte_loByte]

theorem readCarousel_bytes (f : CarouselFields) : readCarousel (carouselBytes f) = some f := by
  obtain ⟨b0, b1, b2, b3, spare⟩ := mask_four f.spare f.horizon f.length f.fallback f.mode
  have bytes : carouselBytes f = f.carousel :: (f.spare ++ bit f.horizon ++ bit f.length ++ bit f.fallback ++ bit f.mode) ::
      (optBytes byteBytes f.mode ++ (optBytes halfBytes f.fallback ++ (optBytes halfBytes f.length ++
        (optBytes halfBytes f.horizon ++ [])))) := by
    simp [carouselBytes]
  rw [bytes]
  unfold readCarousel
  refine (bind_read (optByte_bytes b0 _) _).trans <| (bind_read (optHalf_bytes b1 _) _).trans <|
    (bind_read (optHalf_bytes b2 _) _).trans <| (bind_read (optHalf_bytes b3 _) _).trans ?_
  dsimp only [whole]
  rw [spare]

/-! ### The requests of fixed length -/

theorem auditoriums_bytes (x : BitVec 24) : x.extractLsb' 16 8 ++ x.extractLsb' 8 8 ++ x.extractLsb' 0 8 = x := by
  refine BitVec.eq_of_getLsbD_eq fun i hi => ?_
  rw [BitVec.getLsbD_append, BitVec.getLsbD_append, BitVec.getLsbD_extractLsb', BitVec.getLsbD_extractLsb', BitVec.getLsbD_extractLsb']
  split
  next low => simp [low]
  · split
    next middle =>
      rw [decide_eq_true middle, show 8 + (i - 8) = i by omega]
      rfl
    next =>
      rw [decide_eq_true (show i - 8 - 8 < 8 by omega), show 16 + (i - 8 - 8) = i by omega]
      rfl

theorem readPanel_bytes (f : PanelFields) : readPanel (panelBytes f) = some f := by
  unfold readPanel panelBytes
  dsimp only
  rw [auditoriums_bytes]

theorem readTime_bytes (f : TimeFields) : readTime (timeBytes f) = some f := by
  show some (TimeFields.mk (half (hiByte f.year) (loByte f.year)) f.month f.day f.hour f.minute f.second) = _
  rw [half_hiByte_loByte]

theorem pairs_bytes (l : List (Byte × Half)) : pairs l.length (pairBytes l) = some l := by
  induction l with
  | nil => rfl
  | cons x l ih =>
    show (pairs l.length (pairBytes l)).map (fun m => (x.1, half (hiByte x.2) (loByte x.2)) :: m) = _
    rw [ih, half_hiByte_loByte]
    rfl

theorem oneHalf_bytes (f : Half → Instr) (x : Half) : oneHalf f (halfBytes x) = some (f x) := by
  show some (f (half (hiByte x) (loByte x))) = _
  rw [half_hiByte_loByte]

theorem halfByte_bytes (f : Half → Byte → Instr) (x : Half) (y : Byte) : halfByte f (halfBytes x ++ [y]) = some (f x y) := by
  show some (f (half (hiByte x) (loByte x)) y) = _
  rw [half_hiByte_loByte]

theorem twoHalves_bytes (f : Half → Half → Instr) (x y : Half) : twoHalves f (halfBytes x ++ halfBytes y) = some (f x y) := by
  show some (f (half (hiByte x) (loByte x)) (half (hiByte y) (loByte y))) = _
  rw [half_hiByte_loByte, half_hiByte_loByte]

/-! ### Every request -/

/-- The fields of every request read back under its kind (R191, R192). -/
theorem readFields_fieldsOf {i : Instr} {t : Txn} {kind : Nat} {b : List Byte} (wf : i.wellFormed = true) (h : fieldsOf i = some (t, kind, b)) :
    readFields t kind b = some i := by
  cases i
  case powerOnReset | pinReset | resetRelease | secondEvent | dwellExpiry | holdExpiry | salesStale | minuteEvent | midnightEvent | flashTick
    | frameTime | lostIdentify | replyWindowExpiry | headReport | reportLengthFailure | zoneDeadline | emptyTransaction
    | malformedMessage | chipSelectAssertion => cases h
  case nothing | readEvents | queryBoard | queryNotice | queryCarousel | queryPanel | wake | boardClear | dropAuditorium
    | suspendAuditorium | resumeAuditorium | dropFeature | readJournal | swapJournal | withdrawNotice | dropEntry =>
    cases h
    rfl
  case queryShowing | queryHold | dropText | cancel | release =>
    cases h
    exact oneHalf_bytes _ _
  case delay | sell | refund | confirm =>
    cases h
    exact halfByte_bytes _ _ _
  case setCapacity | snapshot =>
    cases h
    exact twoHalves_bytes _ _ _
  case setFilter l =>
    cases h
    have few : l.length ≤ 84 := of_decide_eq_true wf
    have count : (BitVec.ofNat 8 l.length).toNat = l.length := by
      rw [BitVec.toNat_ofNat]
      omega
    show (pairs (BitVec.ofNat 8 l.length).toNat (pairBytes l)).map (Instr.setFilter t) = _
    rw [count, pairs_bytes]
    rfl
  case putText x l =>
    cases h
    have few : l.length ≤ 250 := of_decide_eq_true wf
    have count : (BitVec.ofNat 8 l.length).toNat = l.length := by
      rw [BitVec.toNat_ofNat]
      omega
    show (if l.length = (BitVec.ofNat 8 l.length).toNat then some (Instr.putText t (half (hiByte x) (loByte x)) l) else none) = _
    rw [count, if_pos rfl, half_hiByte_loByte]
  case putAuditorium a n c =>
    cases h
    show some (Instr.putAuditorium t a (half (hiByte n) (loByte n)) (half (hiByte c) (loByte c))) = _
    rw [half_hiByte_loByte, half_hiByte_loByte]
  case putFeature a n r m =>
    cases h
    show some (Instr.putFeature t a (half (hiByte n) (loByte n)) r (half (hiByte m) (loByte m))) = _
    rw [half_hiByte_loByte, half_hiByte_loByte]
  case hold tag id n l =>
    cases h
    show some (Instr.hold t (half (hiByte tag) (loByte tag)) (half (hiByte id) (loByte id)) n (half (hiByte l) (loByte l))) = _
    rw [half_hiByte_loByte, half_hiByte_loByte, half_hiByte_loByte]
  case setTime f =>
    cases h
    exact congrArg (Option.map (Instr.setTime t)) (readTime_bytes f)
  case setBoard f =>
    cases h
    exact congrArg (Option.map (Instr.setBoard t)) (readBoard_bytes f)
  case publish f =>
    cases h
    exact congrArg (Option.map (Instr.publish t)) (readPublish_bytes f)
  case move f =>
    cases h
    exact congrArg (Option.map (Instr.move t)) (readMove_bytes f)
  case postNotice f =>
    cases h
    exact congrArg (Option.map (Instr.postNotice t)) (readNotice_bytes f)
  case putEntry f =>
    cases h
    exact congrArg (Option.map (Instr.putEntry t)) (readEntry_bytes f)
  case setCarousel f =>
    cases h
    exact congrArg (Option.map (Instr.setCarousel t)) (readCarousel_bytes f)
  case setPanel f =>
    cases h
    exact congrArg (Option.map (Instr.setPanel t)) (readPanel_bytes f)

/-! ### The message -/

theorem optBytes_length {α : Type} {g : α → List Byte} {n : Nat} (h : ∀ x, (g x).length = n) (o : Option α) : (optBytes g o).length ≤ n := by
  cases o with
  | none => exact Nat.zero_le n
  | some x => exact (h x).le

theorem optByte_length (o : Option Byte) : (optBytes byteBytes o).length ≤ 1 := 
  optBytes_length (g := byteBytes) (fun _ => rfl) o
theorem optHalf_length (o : Option Half) : (optBytes halfBytes o).length ≤ 2 := 
  optBytes_length (g := halfBytes) (fun _ => rfl) o
theorem optRel_length (o : Option RelTime) : (optBytes relBytes o).length ≤ 3 := 
  optBytes_length (g := relBytes) (fun _ => rfl) o

theorem halfBytes_length (x : Half) : (halfBytes x).length = 2 := rfl

/-- Every message fits its length byte, and every kind its kind byte (R175). -/
theorem fieldsOf_size {i : Instr} {t : Txn} {kind : Nat} {b : List Byte} (wf : i.wellFormed = true) (h : fieldsOf i = some (t, kind, b)) :
    kind < 256 ∧ b.length + 2 ≤ 255 := by
  cases i
  case powerOnReset | pinReset | resetRelease | secondEvent | dwellExpiry | holdExpiry | salesStale | minuteEvent | midnightEvent | flashTick
    | frameTime | lostIdentify | replyWindowExpiry | headReport | reportLengthFailure | zoneDeadline | emptyTransaction
    | malformedMessage | chipSelectAssertion => cases h
  case setFilter l =>
    cases h
    have few : l.length ≤ 84 := of_decide_eq_true wf
    simp only [List.length_cons, pairBytes_length]
    omega
  case putText x l =>
    cases h
    have few : l.length ≤ 250 := of_decide_eq_true wf
    simp only [halfBytes, List.length_append, List.length_cons, List.length_nil]
    omega
  case setBoard f =>
    cases h
    have h0 := optByte_length f.h0
    have openMin := optHalf_length f.openMin
    have closeMin := optHalf_length f.closeMin
    have lead := optByte_length f.lead
    have late := optByte_length f.late
    have linger := optByte_length f.linger
    have f1 := optHalf_length f.f1
    have f2 := optHalf_length f.f2
    have w := optByte_length f.w
    have k := optByte_length f.k
    have dc := optHalf_length f.dc
    have watch := optHalf_length f.watch
    have frame := optHalf_length f.frame
    simp only [boardBytes, List.length_append, halfBytes, List.length_cons, List.length_nil]
    omega
  case publish f =>
    cases h
    have runtime := optHalf_length f.runtime
    have capacity := optHalf_length f.capacity
    have delay := optByte_length f.delay
    have salesOpen := optRel_length f.salesOpen
    simp only [publishBytes, relBytes, List.length_append, halfBytes, List.length_cons, List.length_nil]
    omega
  case move f =>
    cases h
    have auditorium := optByte_length f.auditorium
    have start := optRel_length f.start
    have capacity := optHalf_length f.capacity
    have salesOpen := optRel_length f.salesOpen
    simp only [moveBytes, List.length_append, halfBytes, List.length_cons, List.length_nil]
    omega
  case postNotice f =>
    cases h
    have scope := optHalf_length f.scope
    have link := optHalf_length f.link
    have activation := optRel_length f.activation
    have expiry := optRel_length f.expiry
    have flash := optBytes_length (g := fun x : Byte × Byte => [x.1, x.2]) (n := 2) (fun _ => rfl) f.flash
    simp only [noticeBytes, List.length_append, halfBytes, List.length_cons, List.length_nil]
    omega
  case putEntry f =>
    cases h
    have alternate := optHalf_length f.alternate
    have feature := optByte_length f.feature
    have daypart := optBytes_length (g := fun x : Half × Half => halfBytes x.1 ++ halfBytes x.2) (n := 4) (fun _ => rfl) f.daypart
    simp only [entryBytes, List.length_append, halfBytes_length, List.length_cons, List.length_nil]
    omega
  case setCarousel f =>
    cases h
    have mode := optByte_length f.mode
    have fallback := optHalf_length f.fallback
    have length := optHalf_length f.length
    have horizon := optHalf_length f.horizon
    simp only [carouselBytes, List.length_append, List.length_cons, List.length_nil]
    omega
  all_goals
    cases h
    simp [halfBytes, timeBytes, panelBytes]

/-- A message with surplus bytes behind it is cut to its length (R175). -/
theorem readRequest_message {port : Port} {kind : Nat} {b extra : List Byte} (hk : kind < 256) (hb : b.length + 2 ≤ 255) :
    readRequest port (BitVec.ofNat 8 (b.length + 2) :: BitVec.ofNat 8 kind :: (b ++ extra)) =
      readFields { port, surplus := extra.length } kind b := by
  have length : (BitVec.ofNat 8 (b.length + 2)).toNat = b.length + 2 := by
    rw [BitVec.toNat_ofNat]
    omega
  have code : (BitVec.ofNat 8 kind).toNat = kind := by
    rw [BitVec.toNat_ofNat]
    omega
  have total : (BitVec.ofNat 8 (b.length + 2) :: BitVec.ofNat 8 kind :: (b ++ extra)).length = b.length + 2 + extra.length := by
    simp only [List.length_cons, List.length_append]
    omega
  unfold readRequest
  dsimp only
  rw [length, code, total, if_pos ⟨by omega, by omega⟩, Nat.add_sub_cancel, List.take_left, Nat.add_sub_cancel_left]

/-- Settles O54: the message is framed by `readRequest_message` and its fields read back by `readFields_fieldsOf`. -/
theorem messagesReadBackAsTheirRequests : Obligations.MessagesReadBackAsTheirRequests := by
  unfold Obligations.MessagesReadBackAsTheirRequests
  intro i t kind b m extra wf fields message surplus
  obtain ⟨hk, hb⟩ := fieldsOf_size wf fields
  have whole : BitVec.ofNat 8 (b.length + 2) :: BitVec.ofNat 8 kind :: b = m := by
    unfold messageBytes at message
    rw [fields] at message
    exact congrArg Prod.snd (Option.some.inj message)
  have read := readRequest_message (port := t.port) (extra := extra) hk hb
  rw [← surplus, readFields_fieldsOf wf fields] at read
  rw [← whole]
  show (readRequest t.port (BitVec.ofNat 8 (b.length + 2) :: BitVec.ofNat 8 kind :: (b ++ extra))).getD _ = i
  rw [read]
  rfl

end Sys2Proof.Wire
end

section
/-! PROOFS about the judging of every showing (R39): what comes of each record, where the records that an arrival judges are read
one by one. -/

namespace Sys2Proof.Machine

variable {s t u : State} {life : LifeSettings} {m : Nat}

/-! ### What comes of every record -/

theorem State.showing?_mem (hs : Rising (s.showings.map Showing.id)) {x : Showing} (hx : x ∈ s.showings) : s.showing? x.id = some x :=
  findKey_of_mem Showing.id hs hx

/-- From s to t a record of F is freed, any other becomes one that R allows, and no record is new. -/
structure Shown (F : Showing → Prop) (R : Showing → Showing → Prop) (s t : State) : Prop where
  freed : ∀ i x, s.showing? i = some x → F x → t.showing? i = none
  live : ∀ i x, s.showing? i = some x → ¬ F x → ∃ y, t.showing? i = some y ∧ R x y
  absent : ∀ i, s.showing? i = none → t.showing? i = none

/-- No record. -/
def noShowing (_ : Showing) : Prop := False

section
variable {F : Showing → Prop} {R Q P : Showing → Showing → Prop}

/-- Records that stay, then records that are freed where they would have been before. -/
theorem Shown.before {G : Showing → Prop} (h : Shown noShowing R s t) (k : Shown F Q t u) (hF : ∀ x y, R x y → (F y ↔ G x))
    (hP : ∀ x y z, R x y → Q y z → P x z) : Shown G P s u where
  freed i x hx f := by
    obtain ⟨y, hy, r⟩ := h.live i x hx id
    exact k.freed i y hy ((hF x y r).2 f)
  live i x hx f := by
    obtain ⟨y, hy, r⟩ := h.live i x hx id
    obtain ⟨z, hz, q⟩ := k.live i y hy fun g => f ((hF x y r).1 g)
    exact ⟨z, hz, hP x y z r q⟩
  absent i hi := k.absent i (h.absent i hi)

/-- Records that stay once the others are freed. -/
theorem Shown.after (h : Shown F R s t) (k : Shown noShowing Q t u) (hP : ∀ x y z, R x y → Q y z → P x z) : Shown F P s u where
  freed i x hx f := k.absent i (h.freed i x hx f)
  live i x hx f := by
    obtain ⟨y, hy, r⟩ := h.live i x hx f
    obtain ⟨z, hz, q⟩ := k.live i y hy id
    exact ⟨z, hz, hP x y z r q⟩
  absent i hi := k.absent i (h.absent i hi)

theorem Shown.congr {s' t' : State} (h : Shown F R s t) (hs : s'.showings = s.showings) (ht : t'.showings = t.showings) :
    Shown F R s' t' where
  freed i x hx f := (State.showing?_congr ht i).trans (h.freed i x ((State.showing?_congr hs i).symm.trans hx) f)
  live i x hx f := by
    obtain ⟨y, hy, r⟩ := h.live i x ((State.showing?_congr hs i).symm.trans hx) f
    exact ⟨y, (State.showing?_congr ht i).trans hy, r⟩
  absent i hi := (State.showing?_congr ht i).trans (h.absent i ((State.showing?_congr hs i).symm.trans hi))

/-- Every record changed by one function that keeps its id. -/
theorem Shown.map {f : Showing → Showing} (hf : ∀ x, (f x).id = x.id) (ht : t.showings = s.showings.map f) :
    Shown noShowing (fun x y => y = f x) s t := by
  have read : ∀ i, t.showing? i = (s.showing? i).map f := fun i => by
    unfold State.showing? findKey
    rw [ht, List.find?_map]
    congr 2
    funext x
    exact congrArg (· == i) (hf x)
  exact ⟨fun _ _ _ no => no.elim, fun i x hx _ => ⟨f x, by rw [read, hx]; rfl, rfl⟩, fun i hi => by rw [read, hi]; rfl⟩

end

/-! ### Every showing judged -/

/-- What being judged at m makes of a record that is not freed and whose H its holds make up (R38, R42, R43, R59). -/
structure Showing.Judged (life : LifeSettings) (m : Nat) (x y : Showing) : Prop where
  record : y = { x with
    state := x.restAt life m, purge := x.purgeAtRest life m, held := y.held, pace := y.pace, band := y.band,
    fast := y.fast, oversold := y.oversold }
  rest : y.due life m = none
  calm : ¬ x.ClosesAt life m → y.held = x.held ∧ y.pace = x.pace ∧ y.band = x.band ∧ y.oversold = x.oversold
  closed : x.ClosesAt life m → y.pace = 0 ∧ y.held = 0

theorem seated_heldBy {P : Nat → Prop} (hs : s.SeatedBut P) {i : Nat} {x : Showing} (hx : s.showing? i = some x) : s.heldBy i = x.held := by
  obtain ⟨mem, rfl⟩ := findKey_mem Showing.id hx
  exact (hs.sums x mem).symm

theorem judgeShowing_absent (k : Nat) {i : Nat} (hi : s.showing? i = none) : judgeShowing k i s = s := by
  cases k with
  | zero => rfl
  | succ k =>
    unfold judgeShowing
    rw [hi]

/-- The judging of one showing, whose H its holds make up. -/
theorem judgeShowing_shown (hs : s.SeatedBut noSpare) (i : Nat) :
    (∀ j, j ≠ i → (judgeShowing lifeSteps i s).showing? j = s.showing? j) ∧
    ∀ x, s.showing? i = some x →
      (x.FreedAt s.life s.cal.m → (judgeShowing lifeSteps i s).showing? i = none) ∧
      (¬ x.FreedAt s.life s.cal.m → ∃ y, (judgeShowing lifeSteps i s).showing? i = some y ∧ x.Judged s.life s.cal.m y) := by
  cases hx : s.showing? i with
  | none =>
    rw [judgeShowing_absent _ hx]
    exact ⟨fun _ _ => rfl, fun x h => by cases h⟩
  | some x =>
    obtain ⟨freed, live⟩ := judgeShowing_judged lifeSteps (steps_le_lifeSteps x.state) hx
    refine ⟨fun j hj => ?_, fun z h => ?_⟩
    · by_cases f : x.FreedAt s.life s.cal.m
      · exact (freed f).others j hj
      · obtain ⟨y, hy, -⟩ := live f
        exact hy.others j hj
    · cases h
      refine ⟨fun f => (freed f).here, fun f => ?_⟩
      obtain ⟨y, hy, record, rest, -, calm, closed⟩ := live f
      refine ⟨y, hy.here, record, rest, calm, fun c => ⟨(closed c).1, ?_⟩⟩
      rw [(closed c).2, seated_heldBy hs hx, Nat.sub_self]

/-- The judging of a list of showings, each named once. -/
theorem foldl_judgeShowing_shown {ids : List Nat} (once : ids.Nodup) (hs : s.SeatedBut noSpare) :
    (∀ j, j ∉ ids → (ids.foldl (fun t id => judgeShowing lifeSteps id t) s).showing? j = s.showing? j) ∧
    ∀ i ∈ ids, ∀ x, s.showing? i = some x →
      (x.FreedAt s.life s.cal.m → (ids.foldl (fun t id => judgeShowing lifeSteps id t) s).showing? i = none) ∧
      (¬ x.FreedAt s.life s.cal.m →
        ∃ y, (ids.foldl (fun t id => judgeShowing lifeSteps id t) s).showing? i = some y ∧ x.Judged s.life s.cal.m y) := by
  induction ids generalizing s with
  | nil => exact ⟨fun _ _ => rfl, fun i hi => by simp at hi⟩
  | cons k l ih =>
    obtain ⟨notHere, once⟩ := List.nodup_cons.1 once
    obtain ⟨others, here⟩ := judgeShowing_shown hs k
    obtain ⟨ihOthers, ihHere⟩ := ih once (judgeShowing_seated lifeSteps k hs)
    have frame := (judgeShowing_work lifeSteps k s).frame
    rw [frame.life, frame.cal] at ihHere
    refine ⟨fun j hj => ?_, fun i hi x hx => ?_⟩
    · exact (ihOthers j fun h => hj (List.mem_cons_of_mem _ h)).trans (others j fun h => hj (h ▸ List.mem_cons_self))
    · by_cases hik : i = k
      · subst hik
        have still := ihOthers i notHere
        simp only [List.foldl_cons]
        rw [still]
        exact here x hx
      · exact ihHere i ((List.mem_cons.1 hi).resolve_left hik) x ((others i hik).trans hx)

theorem judgeAll_shown (hs : s.SeatedBut noSpare) :
    Shown (Showing.FreedAt s.life s.cal.m) (Showing.Judged s.life s.cal.m) s (judgeAll s) := by
  obtain ⟨others, here⟩ := foldl_judgeShowing_shown (ids := s.showings.map Showing.id) (hs.showings.imp Nat.ne_of_lt) hs
  have live : ∀ i x, s.showing? i = some x → i ∈ s.showings.map Showing.id := fun i x hx => by
    obtain ⟨mem, hid⟩ := findKey_mem Showing.id hx
    exact List.mem_map.2 ⟨x, mem, hid⟩
  refine ⟨fun i x hx => (here i (live i x hx) x hx).1, fun i x hx => (here i (live i x hx) x hx).2, fun i hi => ?_⟩
  by_cases mem : i ∈ s.showings.map Showing.id
  · obtain ⟨x, hx, rfl⟩ := List.mem_map.1 mem
    exact absurd hi (by rw [State.showing?_mem hs.showings hx]; simp)
  · exact (others i mem).trans hi

/-! ### The records read in their table -/

/-- What is said of every record by its id is said of every record of the table. -/
theorem Shown.table {F : Showing → Prop} {R : Showing → Showing → Prop} (h : Shown F R s t) (hs : Rising (s.showings.map Showing.id)) :
    (∀ x ∈ s.showings, F x → t.showing? x.id = none) ∧
    (∀ x ∈ s.showings, ¬ F x → ∃ y, t.showing? x.id = some y ∧ R x y) ∧
    ∀ y ∈ t.showings, ∃ x ∈ s.showings, x.id = y.id := by
  refine ⟨fun x hx => h.freed x.id x (State.showing?_mem hs hx), fun x hx => h.live x.id x (State.showing?_mem hs hx), fun y hy => ?_⟩
  by_contra none
  have gone : s.showing? y.id = Option.none := by
    cases hx : s.showing? y.id with
    | none => rfl
    | some x => exact absurd ⟨x, findKey_mem Showing.id hx⟩ none
  have missing : t.showing? y.id = Option.none := h.absent y.id gone
  unfold State.showing? findKey at missing
  simpa using List.find?_eq_none.1 missing y hy

end Sys2Proof.Machine
end

section
/-! PROOFS about a minute event in the records of the showings (R39, R70, R74, R90, R93): holds that run out, the judging and the pace. -/

namespace Sys2Proof.Machine

variable {s t u : State} {life : LifeSettings} {m : Nat}

theorem Shown.refl {R : Showing → Showing → Prop} (h : ∀ x, R x x) (s : State) : Shown noShowing R s s :=
  ⟨fun _ _ _ no => no.elim, fun _ x hx _ => ⟨x, hx, h x⟩, fun _ hi => hi⟩

/-! ### Holds that run out -/

/-- What holds that run out make of a record: its seats move, and nothing of a record that no such hold names (R70). -/
structure Showing.RanOut (m : Nat) (named : Nat → Prop) (x y : Showing) : Prop where
  record : y = { x with held := y.held, band := y.band, oversold := y.oversold, fast := y.fast }
  fast : y = x ∨ y.fast = y.nextFast m
  calm : ¬ named x.id → y = x

section
variable {named : Nat → Prop}

theorem Showing.RanOut.refl (x : Showing) : x.RanOut m named x := ⟨rfl, .inl rfl, fun _ => rfl⟩

theorem Showing.RanOut.trans {x y z : Showing} (h : x.RanOut m named y) (k : y.RanOut m named z) : x.RanOut m named z where
  record := by rw [k.record, h.record]
  fast := by
    rcases k.fast with rfl | fast
    · exact h.fast
    · exact .inr fast
  calm n := by
    obtain rfl := h.calm n
    exact k.calm n

theorem endHolds_expired {g : Source} {i : Nat} (l : List Hold) (hi : named i) (hm : s.cal.m = m) :
    Shown noShowing (Showing.RanOut m named) s (endHolds g endExpired .expire i l (fun y => y) s) := by
  cases hx : s.showing? i with
  | none =>
    have still : endHolds g endExpired .expire i l (fun y => y) s = s := by
      unfold endHolds
      rw [hx]
    rw [still]
    exact .refl Showing.RanOut.refl s
  | some x =>
    obtain ⟨⟨y, hs, hy⟩, -⟩ := endHolds_seats g endExpired .expire l (fun y => y) hx
    have hid : x.id = i := State.showing?_id hx
    have moved : Recorded i (some y) s (s.modShowing i fun _ => y) :=
      modShowing_recorded (f := fun _ => y) hx fun _ _ => by rw [hy]; exact hid
    have recorded : Recorded i (some y) s (endHolds g endExpired .expire i l (fun y => y) s) := moved.same hs
    refine ⟨fun _ _ _ no => no.elim, fun j z hz _ => ?_, fun j hj => ?_⟩
    · by_cases e : j = i
      · subst e
        obtain rfl := Option.some.inj (hx.symm.trans hz)
        exact ⟨y, recorded.here, by rw [hy]; rfl, .inr (by rw [hy, hm]; rfl), fun n => absurd (hid ▸ hi) n⟩
      · exact ⟨z, (recorded.others j e).trans hz, .refl z⟩
    · refine (recorded.others j fun e => ?_).trans hj
      rw [e, hx] at hj
      cases hj

theorem foldl_endHolds_expired (source : Nat → Source) (ended : Nat → List Hold) (ids : List Nat) (hi : ∀ i ∈ ids, named i)
    (hm : s.cal.m = m) : Shown noShowing (Showing.RanOut m named) s
      (ids.foldl (fun t id => endHolds (source id) endExpired .expire id (ended id) (fun y => y) t) s) := by
  induction ids generalizing s with
  | nil => exact .refl Showing.RanOut.refl s
  | cons i l ih =>
    have first : Shown noShowing (Showing.RanOut m named) s _ := endHolds_expired (g := source i) (ended i) (hi i (by simp)) hm
    have cal := (endHolds_work (source i) endExpired .expire i (ended i) (fun y => y) s).frame.cal
    exact first.before (ih (fun j hj => hi j (by simp [hj])) (by rw [cal]; exact hm)) (fun _ _ _ => Iff.rfl) fun _ _ _ => .trans

end

theorem expireHolds_shown (source : Nat → Source) (s : State) :
    Shown noShowing (Showing.RanOut s.cal.m fun i => ∃ h ∈ s.expired, h.showing = i) s (expireHolds source s) := by
  refine foldl_endHolds_expired source _ _ (fun i hi => ?_) rfl
  obtain ⟨h, hh, named⟩ := List.any_eq_true.1 (List.mem_filter.1 hi).2
  exact ⟨h, hh, by simpa using named⟩

/-! ### What the figures of a record do not move -/

theorem due_figures {x y : Showing} (h : y = { x with
    held := y.held, tally := y.tally, pace := y.pace, band := y.band, fast := y.fast, oversold := y.oversold }) :
    y.due life m = x.due life m := by
  rw [h]
  rfl

theorem judgedAt_figures {x y : Showing} (h : y = { x with
    held := y.held, tally := y.tally, pace := y.pace, band := y.band, fast := y.fast, oversold := y.oversold }) :
    y.restAt life m = x.restAt life m ∧ y.purgeAtRest life m = x.purgeAtRest life m ∧ (y.FreedAt life m ↔ x.FreedAt life m) ∧
      (y.ClosesAt life m ↔ x.ClosesAt life m) := by
  rw [h]
  exact ⟨rfl, rfl, .rfl, .rfl⟩

theorem Showing.RanOut.figures {named : Nat → Prop} {x y : Showing} (h : x.RanOut m named y) : y = { x with
    held := y.held, tally := y.tally, pace := y.pace, band := y.band, fast := y.fast, oversold := y.oversold } := by
  rw [h.record]

/-! ### The minute event delivered -/

/-- CLOSED is past the pace states, and with it ENDED. -/
theorem Showing.ClosesAt.stops {x : Showing} (h : x.ClosesAt life m) : (x.restAt life m).paceState = false := by
  rcases h.2 with e | e <;> rw [e] <;> rfl

/-- A judged record after its minute (R39, R74, R90, R93). -/
theorem Showing.Judged.atMinute {x y : Showing} (h : x.Judged life m y) : x.MinuteTo life m True (y.atMinute m) := by
  have state : y.state = x.restAt life m := by rw [h.record]
  have before : y.tally = x.tally := by rw [h.record]
  have pace : (y.atMinute m).pace = if y.state.paceState then nextPace y.pace y.tally else y.pace := rfl
  refine { judged := ⟨?_, h.rest, fun _ c => (h.closed c).2, fun _ c => (h.calm c).1⟩, tally := rfl, fast := rfl, updated := ?_,
           stopped := fun c => ?_, kept := fun same still => ?_, band := fun _ c => (h.calm c).2.2 }
  · show y.atMinute m = _
    unfold Showing.atMinute
    rw [h.record]
  · intro _ running
    have running : y.state.paceState = true := by
      rcases running with e | e | e <;> exact (congrArg ShowState.paceState e).trans rfl
    have opened : ¬ x.ClosesAt life m := fun c => by
      rw [state, c.stops] at running
      cases running
    rw [pace, if_pos running, before, (h.calm opened).2.1]
    rfl
  · rw [pace, if_neg (by rw [state, c.stops]; decide), (h.closed c).1]
  · have same : x.state = y.state := same
    have stopped : y.state.paceState = false := by
      rw [← same]
      rcases still with e | e | e | e <;> rw [e] <;> rfl
    have opened : ¬ x.ClosesAt life m := fun c => by
      obtain ⟨early, late⟩ := c
      rw [← state, ← same] at late
      rcases late with e | e <;> rw [e] at early <;> simp at early
    rw [pace, if_neg (by rw [stopped]; decide), (h.calm opened).2.1]

theorem Showing.atMinute_id (m : Nat) (x : Showing) : (x.atMinute m).id = x.id := rfl

/-- The minute event delivered, in whichever order the Showing Table and the Notice Unit take it (R3, R9). -/
theorem deliverMinute_shown (hs : s.SeatedBut noSpare) :
    Shown (Showing.FreedAt s.life s.cal.m) (fun x y => x.MinuteTo s.life s.cal.m True y) s (deliverMinute s) := by
  have paced : ∀ v : State, v.cal = s.cal → Shown (Showing.FreedAt s.life s.cal.m) (Showing.Judged s.life s.cal.m) s v →
      Shown (Showing.FreedAt s.life s.cal.m) (fun x y => x.MinuteTo s.life s.cal.m True y) s (paceMinute v) := fun v hv judged =>
    judged.after (.map (Showing.atMinute_id v.cal.m) rfl) fun x y z h e => by rw [e, hv]; exact h.atMinute
  have chosen : State.SeatedBut noSpare { s with choice := s.choice + 1 } := hs.frame rfl rfl
  unfold deliverMinute
  dsimp only
  split
  · split
    · refine paced _ ?_ ((judgeAll_shown chosen).congr rfl (noticeMinute_seats _ _).showings)
      rw [(noticeMinute_work _ _).frame.cal, (judgeAll_work _).frame.cal]
    · have noticed := noticeMinute_work s.noticeSource { s with choice := s.choice + 1 }
      have kept := noticeMinute_seats s.noticeSource { s with choice := s.choice + 1 }
      have judged := judgeAll_shown (chosen.same kept)
      rw [noticed.frame.cal, noticed.frame.life] at judged
      refine paced _ ?_ (judged.congr kept.showings.symm rfl)
      rw [(judgeAll_work _).frame.cal, noticed.frame.cal]
  · refine paced _ ?_ ((judgeAll_shown hs).congr rfl (noticeMinute_seats _ _).showings)
    rw [(noticeMinute_work _ _).frame.cal, (judgeAll_work _).frame.cal]

/-! ### Holds that run out at a minute event -/

theorem Showing.MinuteTo.afterExpiry {named : Nat → Prop} {x y z : Showing} (h : x.RanOut m named y)
    (k : y.MinuteTo life m True z) {quiet : Prop} (hq : quiet → ¬ named x.id) : x.MinuteTo life m quiet z := by
  obtain ⟨rest, purge, -, closes⟩ := judgedAt_figures (life := life) (m := m) h.figures
  have record := k.judged.record
  have same : quiet → y = x := fun q => h.calm (hq q)
  have figures : y.state = x.state ∧ y.pace = x.pace ∧ y.tally = x.tally := by rw [h.record]; exact ⟨rfl, rfl, rfl⟩
  obtain ⟨state, pace, tally⟩ := figures
  refine { judged := ⟨?_, k.judged.rest, fun _ c => k.judged.closed trivial (closes.2 c), fun q c => ?_⟩, tally := k.tally, fast := k.fast,
           updated := ?_, stopped := fun c => k.stopped (closes.2 c), kept := ?_, band := fun q c => ?_ }
  · rw [rest, purge] at record
    rw [record, h.record]
  · rw [k.judged.held trivial fun d => c (closes.1 d), same q]
  · rw [← state, ← pace, ← tally]
    exact k.updated
  · rw [← state, ← pace]
    exact k.kept
  · obtain ⟨band, oversold⟩ := k.band trivial fun d => c (closes.1 d)
    rw [same q] at band oversold
    exact ⟨band, oversold⟩

theorem Showing.MinuteTo.beforeExpiry {named : Nat → Prop} {x y z : Showing} (h : x.MinuteTo life m True y)
    (k : y.RanOut m named z) {quiet : Prop} (hq : quiet → ¬ named x.id) : x.MinuteTo life m quiet z := by
  have hid : y.id = x.id := by rw [h.judged.record]
  have same : quiet → z = y := fun q => k.calm (by rw [hid]; exact hq q)
  have figures : z.state = y.state ∧ z.pace = y.pace ∧ z.tally = y.tally := by rw [k.record]; exact ⟨rfl, rfl, rfl⟩
  obtain ⟨state, pace, tally⟩ := figures
  refine { judged := ⟨?_, (due_figures k.figures).trans h.judged.rest, fun q c => ?_, fun q c => ?_⟩, tally := tally.trans h.tally,
           fast := ?_, updated := ?_, stopped := fun c => pace.trans (h.stopped c), kept := ?_, band := fun q c => ?_ }
  · rw [k.record, h.judged.record]
  · rw [same q]
    exact h.judged.closed trivial c
  · rw [same q]
    exact h.judged.held trivial c
  · rcases k.fast with rfl | fast
    · exact h.fast
    · exact fast
  · rw [state, pace]
    exact h.updated
  · rw [state, pace]
    exact h.kept
  · rw [same q]
    exact h.band trivial c

/-! ### No hold is new -/

theorem endHolds_sublist (g : Source) (reason : Nat) (kind : JournalKind) (i : Nat) (l : List Hold) (f : Showing → Showing) (s : State) :
    (endHolds g reason kind i l f s).holds.Sublist s.holds := by
  cases hx : s.showing? i with
  | none =>
    unfold endHolds
    rw [hx]
  | some x =>
    rw [(endHolds_seats g reason kind l f hx).2]
    exact List.filter_sublist

theorem transitionTo_sublist (i : Nat) (st : ShowState) (s : State) : (transitionTo i st s).holds.Sublist s.holds := by
  by_cases h : st = .closed
  · subst h
    exact endHolds_sublist _ _ _ i _ _ (enterState i .closed s)
  · rw [transitionTo_holds i h s]

theorem freeShowing_holds (x : Showing) (s : State) : (freeShowing x s).holds = s.holds :=
  (retireNotices_seats _ _ _).holds

theorem judgeShowing_sublist (k i : Nat) (s : State) : (judgeShowing k i s).holds.Sublist s.holds := by
  induction k generalizing s with
  | zero => exact List.Sublist.refl _
  | succ k ih =>
    cases hx : s.showing? i with
    | none =>
      rw [judgeShowing_absent _ hx]
    | some x =>
      rw [judgeShowing_step k hx]
      cases x.due s.life s.cal.m with
      | none => exact List.Sublist.refl _
      | some d =>
        cases d with
        | enter st => exact (ih (transitionTo i st s)).trans (transitionTo_sublist i st s)
        | free => exact (freeShowing_holds x s).symm ▸ List.Sublist.refl _

theorem judgeAll_sublist (s : State) : (judgeAll s).holds.Sublist s.holds :=
  foldl_rel (fun a b : State => b.holds.Sublist a.holds) (fun _ => List.Sublist.refl _) (fun h k => k.trans h) _
    (fun u i => judgeShowing_sublist lifeSteps i u) _ s

theorem deliverMinute_sublist (s : State) : (deliverMinute s).holds.Sublist s.holds := by
  have paced : ∀ u : State, (paceMinute u).holds = u.holds := fun _ => rfl
  unfold deliverMinute
  dsimp only
  split
  · split
    · rw [paced, (noticeMinute_seats _ _).holds]
      exact judgeAll_sublist { s with choice := s.choice + 1 }
    · rw [paced]
      refine (judgeAll_sublist _).trans ?_
      rw [(noticeMinute_seats _ _).holds]
  · rw [paced, (noticeMinute_seats _ _).holds]
    exact judgeAll_sublist s

/-! ### The whole minute event -/

/-- A minute event with the holds that run out at it, whichever is taken first (R39, R70). -/
theorem minuteWithExpiry_shown (hs : s.SeatedBut noSpare) {quiet : Showing → Prop}
    (hq : ∀ x, quiet x → ¬ ∃ h ∈ s.expired, h.showing = x.id) :
    Shown (Showing.FreedAt s.life s.cal.m) (fun x y => x.MinuteTo s.life s.cal.m (quiet x) y) s (minuteWithExpiry s) := by
  have expiryFirst : ∀ v : State, v.SeatedBut noSpare → v.showings = s.showings → v.expired = s.expired → v.cal = s.cal → v.life = s.life →
      Shown (Showing.FreedAt s.life s.cal.m) (fun x y => x.MinuteTo s.life s.cal.m (quiet x) y) s
        (deliverMinute (expireHolds s.expirySource v)) := fun v hv shows ended cal life => by
    have ran := expireHolds_shown s.expirySource v
    have work := (expireHolds_work s.expirySource v).frame
    have minute := deliverMinute_shown (expireHolds_seated s.expirySource hv)
    rw [work.cal, work.life, cal, life] at minute
    rw [cal, ended] at ran
    exact (ran.before minute (fun x y r => (judgedAt_figures r.figures).2.2.1)
      fun x y z r k => .afterExpiry r k (hq x)).congr shows.symm rfl
  have chosen : State.SeatedBut noSpare { s with choice := s.choice + 1 } := hs.frame rfl rfl
  unfold minuteWithExpiry
  dsimp only
  split
  · split
    · exact expiryFirst { s with choice := s.choice + 1 } chosen rfl rfl rfl rfl
    · have minute : Shown (Showing.FreedAt s.life s.cal.m) (fun x y => x.MinuteTo s.life s.cal.m True y) s
          (deliverMinute { s with choice := s.choice + 1 }) := (deliverMinute_shown chosen).congr rfl rfl
      have ran := expireHolds_shown s.expirySource (deliverMinute { s with choice := s.choice + 1 })
      have cal : (deliverMinute { s with choice := s.choice + 1 }).cal = s.cal := (deliverMinute_work _).frame.cal
      rw [cal] at ran
      refine minute.after ran fun x y z k r => .beforeExpiry k r fun q => ?_
      rintro ⟨h, hh, named⟩
      obtain ⟨mem, zero⟩ := List.mem_filter.1 hh
      exact hq x q ⟨h, List.mem_filter.2 ⟨(deliverMinute_sublist { s with choice := s.choice + 1 }).subset mem, zero⟩, named⟩
  · exact expiryFirst s hs rfl rfl rfl rfl

/-! ### The tallies -/

/-- Every tally is 0. -/
def State.Zeroed (s : State) : Prop := ∀ x ∈ s.showings, x.tally = 0

theorem paceMinute_zeroed (s : State) : (paceMinute s).Zeroed := fun y hy => by
  obtain ⟨x, -, rfl⟩ := List.mem_map.1 hy
  rfl

theorem deliverMinute_zeroed (s : State) : (deliverMinute s).Zeroed := by
  unfold deliverMinute
  dsimp only
  split <;> exact paceMinute_zeroed _

theorem modKey_forall {p : Showing → Prop} {i : Nat} {y : Showing} {l : List Showing} (h : ∀ x ∈ l, p x) (hy : p y) :
    ∀ x ∈ modKey Showing.id i (fun _ => y) l, p x := fun x hx => by
  obtain ⟨z, hz, e⟩ := List.mem_map.1 hx
  split at e
  · exact e ▸ hy
  · exact e ▸ h z hz

theorem expireHolds_zeroed (source : Nat → Source) (h : s.Zeroed) : (expireHolds source s).Zeroed := by
  refine foldl_keeps (I := State.Zeroed) (fun u i hu => ?_) _ h
  cases hx : u.showing? i with
  | none =>
    unfold endHolds
    rw [hx]
    exact hu
  | some x =>
    obtain ⟨⟨y, hs, hy⟩, -⟩ := endHolds_seats (source i) endExpired .expire (s.expired.filter fun h => h.showing == i) (fun y => y) hx
    unfold State.Zeroed
    rw [hs]
    exact modKey_forall hu (by rw [hy]; exact hu x (findKey_mem Showing.id hx).1)

theorem minuteWithExpiry_zeroed (s : State) : (minuteWithExpiry s).Zeroed := by
  unfold minuteWithExpiry
  dsimp only
  split
  · split
    · exact deliverMinute_zeroed _
    · exact expireHolds_zeroed _ (deliverMinute_zeroed _)
  · exact deliverMinute_zeroed _

end Sys2Proof.Machine
end

section
/-! PROOFS about what a minute event raises and what it makes of the notices (R6, R107, R108, R110). -/

namespace Sys2Proof.Machine

variable {s t u : State}

/-! ### DAY START is the calendar's alone -/

/-- The DAY STARTs raised so far at an arrival. -/
def State.dayStarts (s : State) : List EventRecord := (s.outbox.map fun x => x.2).filter fun r => decide (r.kind = .dayStart)

/-- No DAY START is raised from s to t. -/
def NoDayStart (s t : State) : Prop := t.dayStarts = s.dayStarts

theorem NoDayStart.refl (s : State) : NoDayStart s s := rfl

theorem NoDayStart.trans (h : NoDayStart s t) (k : NoDayStart t u) : NoDayStart s u := Eq.trans k h

theorem NoDayStart.same (h : t.outbox = s.outbox) : NoDayStart s t := by
  unfold NoDayStart State.dayStarts
  rw [h]

theorem NoDayStart.foldl {α : Type} (f : State → α → State) (h : ∀ s x, NoDayStart s (f s x)) (l : List α) (s : State) :
    NoDayStart s (l.foldl f s) :=
  foldl_rel NoDayStart .refl .trans f h l s

theorem dayStarts_raise (g : Source) (k : EventKind) (n d : Nat) (s : State) :
    (raise g k n d s).dayStarts = s.dayStarts ++ if k = .dayStart then [s.record k n d] else [] := by
  unfold State.dayStarts
  rw [raise_outbox, List.map_append, List.filter_append]
  congr 1
  by_cases h : k = .dayStart <;> simp [State.record, h]

theorem NoDayStart.raise (g : Source) {k : EventKind} (h : k ≠ .dayStart) (n d : Nat) (s : State) : NoDayStart s (raise g k n d s) := by
  unfold NoDayStart
  rw [dayStarts_raise, if_neg h, List.append_nil]

theorem NoDayStart.of_zones (h : OnlyZones s t) : NoDayStart s t := by
  obtain ⟨cs, ps, qs, rfl⟩ := h
  exact .same rfl

theorem judgeTakeover_noDayStart (s : State) : NoDayStart s (judgeTakeover s) := by
  obtain ⟨cs, ps, qs, e⟩ := judgeTakeover_only s
  exact .same (by rw [e])

/-- Records of a list that are no DAY STARTs. -/
theorem raises_noDayStart {α : Type} (g : α → Source) {k : EventKind} (hk : k ≠ .dayStart) (n : α → Nat) (d : Nat) (l : List α)
    (s : State) : NoDayStart s (l.foldl (fun u x => raise (g x) k (n x) d u) s) :=
  .foldl _ (fun u x => .raise (g x) hk (n x) d u) l s

theorem retireNotices_noDayStart (g : Source) (ids : List Nat) (s : State) : NoDayStart s (retireNotices g ids s) := by
  unfold retireNotices
  split
  · exact .refl s
  · have told : NoDayStart s _ := raises_noDayStart (fun _ => g) (k := .noticeState) (by decide) (fun i => i) noticeRetired
      (anyOrder s.choice Source.notice ids) { s with choice := s.choice + ids.length }
    exact NoDayStart.trans (t := freeNotices ids _) told (judgeTakeover_noDayStart _)

theorem retireDelayed_noDayStart (g : Source) (i : Nat) (s : State) : NoDayStart s (retireDelayed g i s) := by
  unfold retireDelayed
  split
  · exact retireNotices_noDayStart g _ s
  · exact .refl s

theorem noticeMinute_noDayStart (source : Notice → Source) (s : State) : NoDayStart s (noticeMinute source s) := by
  unfold noticeMinute
  refine NoDayStart.trans ?_ (judgeTakeover_noDayStart _)
  refine NoDayStart.trans (t := judgeTakeover _) ?_ (.same rfl)
  refine NoDayStart.trans ?_ (judgeTakeover_noDayStart _)
  refine NoDayStart.trans ?_ (raises_noDayStart source (by decide) Notice.id noticeExpired _ _)
  exact NoDayStart.trans (.same rfl) (raises_noDayStart source (by decide) Notice.id noticeActive _ _)

theorem changeSeats_noDayStart (g : Source) (i : Nat) (f : Showing → Showing) (s : State) : NoDayStart s (changeSeats g i f s) := by
  unfold changeSeats
  split
  · exact .refl s
  next x _ =>
    dsimp only
    have changed : NoDayStart s (s.modShowing i fun _ => (f x).inLine s.figure s.cal.m) := .same rfl
    have oversold : NoDayStart s (if x.excess < ((f x).inLine s.figure s.cal.m).excess
        then raise g .oversold i ((f x).inLine s.figure s.cal.m).excess (s.modShowing i fun _ => (f x).inLine s.figure s.cal.m)
        else s.modShowing i fun _ => (f x).inLine s.figure s.cal.m) := by
      split
      · exact changed.trans (.raise g (by decide) _ _ _)
      · exact changed
    split
    · exact oversold.trans (.raise g (by decide) _ _ _)
    · exact oversold

theorem endHolds_noDayStart (g : Source) (reason : Nat) (kind : JournalKind) (i : Nat) (ended : List Hold) (f : Showing → Showing)
    (s : State) : NoDayStart s (endHolds g reason kind i ended f s) := by
  unfold endHolds
  split
  · exact .refl s
  · dsimp only
    refine NoDayStart.trans ?_ (changeSeats_noDayStart g i _ _)
    refine NoDayStart.trans ?_ (NoDayStart.foldl (fun t e => journalize g e t) (fun t e => .same rfl) _ _)
    exact NoDayStart.trans (.same rfl) (raises_noDayStart (fun _ => g) (by decide) Hold.tag reason _ _)

theorem expireHolds_noDayStart (source : Nat → Source) (s : State) : NoDayStart s (expireHolds source s) :=
  .foldl _ (fun t i => endHolds_noDayStart _ _ _ i _ _ t) _ s

theorem enterState_noDayStart (i : Nat) (st : ShowState) (s : State) : NoDayStart s (enterState i st s) :=
  NoDayStart.raise (s := s.modShowing i fun x => { x with state := st }) (.showing i) (k := .showingState) (by decide) i st.code

theorem transitionTo_noDayStart (i : Nat) (st : ShowState) (s : State) : NoDayStart s (transitionTo i st s) := by
  cases st with
  | planned => exact enterState_noDayStart i _ s
  | onSale => exact enterState_noDayStart i _ s
  | seating => exact enterState_noDayStart i _ s
  | started => exact (enterState_noDayStart i _ s).trans (retireDelayed_noDayStart _ i _)
  | closed => exact (enterState_noDayStart i _ s).trans (endHolds_noDayStart _ _ _ i _ _ _)
  | ended => exact (enterState_noDayStart i .ended (s.modShowing i _)).trans (retireNotices_noDayStart _ _ _)
  | cancelled => exact enterState_noDayStart i _ s

theorem freeShowing_noDayStart (x : Showing) (s : State) : NoDayStart s (freeShowing x s) :=
  (NoDayStart.raise (.showing x.id) (k := .showingFreed) (by decide) x.id x.state.code s).trans (retireNotices_noDayStart _ _ _)

theorem judgeShowing_noDayStart (k i : Nat) (s : State) : NoDayStart s (judgeShowing k i s) := by
  induction k generalizing s with
  | zero => exact .refl s
  | succ k ih =>
    unfold judgeShowing
    split
    · exact .refl s
    · split
      · exact .refl s
      · exact (transitionTo_noDayStart i _ s).trans (ih _)
      · exact freeShowing_noDayStart _ s

theorem judgeAll_noDayStart (s : State) : NoDayStart s (judgeAll s) :=
  .foldl _ (fun t i => judgeShowing_noDayStart lifeSteps i t) _ s

theorem deliverMinute_noDayStart (s : State) : NoDayStart s (deliverMinute s) := by
  have paced : ∀ u v : State, NoDayStart u v → NoDayStart u (paceMinute v) := fun _ _ h => h
  unfold deliverMinute
  dsimp only
  split
  · refine paced _ _ ?_
    split
    · exact (judgeAll_noDayStart { s with choice := s.choice + 1 }).trans (noticeMinute_noDayStart _ _)
    · exact (noticeMinute_noDayStart _ { s with choice := s.choice + 1 }).trans (judgeAll_noDayStart _)
  · exact paced _ _ ((judgeAll_noDayStart s).trans (noticeMinute_noDayStart _ _))

theorem minuteWithExpiry_noDayStart (s : State) : NoDayStart s (minuteWithExpiry s) := by
  unfold minuteWithExpiry
  dsimp only
  split
  · split
    · exact (expireHolds_noDayStart _ { s with choice := s.choice + 1 }).trans (deliverMinute_noDayStart _)
    · exact (deliverMinute_noDayStart { s with choice := s.choice + 1 }).trans (expireHolds_noDayStart _ _)
  · exact (expireHolds_noDayStart _ s).trans (deliverMinute_noDayStart _)

theorem setHushWake_noDayStart (hush wake : Bool) (s : State) : NoDayStart s (setHushWake hush wake s) := by
  unfold setHushWake
  dsimp only
  split
  · exact .same rfl
  · have told := NoDayStart.raise .calendar (k := .hush) (by decide) 0 (hushPair hush wake) { s with cal := { s.cal with hush, wake } }
    exact told.trans (.of_zones (judgeHushAll_only _))

theorem watchSecond_noDayStart (s : State) : NoDayStart s (watchSecond s) := by
  unfold watchSecond
  split
  · exact .refl s
  · split
    · exact NoDayStart.trans (.same rfl) (.raise .watch (by decide) 0 _ _)
    · exact .same rfl

/-- What settles holds the DAY STARTs raised, where they are at most one. -/
theorem settle_dayStarts (s : State) (h : s.dayStarts.length ≤ 1) : ∃ l : List EventRecord,
    (settle s).queues = l.foldl (offerAll s.ports) s.queues ∧ l.filter (fun r => decide (r.kind = .dayStart)) = s.dayStarts := by
  refine ⟨s.settledRecords, rfl, ?_⟩
  have arranged : (((arrange (s.choice + s.journalBox.length) s.outbox).map fun x => x.2).filter
      fun r => decide (r.kind = .dayStart)).Perm s.dayStarts :=
    ((arrange_perm _ s.outbox).map _).filter _
  have records : s.settledRecords.filter (fun r => decide (r.kind = .dayStart)) =
      ((arrange (s.choice + s.journalBox.length) s.outbox).map fun x => x.2).filter fun r => decide (r.kind = .dayStart) := by
    unfold State.settledRecords
    rw [List.filter_append]
    split <;> simp [State.record]
  rw [records]
  match hd : s.dayStarts with
  | [] => rw [hd] at arranged; exact arranged.eq_nil
  | [r] => rw [hd] at arranged; exact List.perm_singleton.1 arranged
  | _ :: _ :: _ => rw [hd] at h; simp at h

end Sys2Proof.Machine
end

section
/-! PROOFS about the notices without a link at a minute event (R107, R108): the judging leaves them, and the Notice Unit takes each
by its own minutes. -/

namespace Sys2Proof.Machine

variable {s t u : State}

/-! ### The judging leaves the notices without a link -/

/-- From s to t notices leave the table, but none without a link. -/
structure Unlinked (s t : State) : Prop where
  sub : t.notices.table.Sublist s.notices.table
  kept : ∀ n ∈ s.notices.table, n.link = none → n ∈ t.notices.table
  listed : ∀ n ∈ s.notices.table, n.link = none → n.id ∈ s.notices.activation → n.id ∈ t.notices.activation

/-- The ids of the notices ascend. -/
def State.Numbered (s : State) : Prop := Rising (s.notices.table.map Notice.id)

theorem Unlinked.same (h : t.notices = s.notices) : Unlinked s t :=
  ⟨by rw [h], fun n hn _ => h ▸ hn, fun n _ _ ha => h ▸ ha⟩

theorem Unlinked.refl (s : State) : Unlinked s s := .same rfl

theorem Unlinked.trans (h : Unlinked s t) (k : Unlinked t u) : Unlinked s u where
  sub := k.sub.trans h.sub
  kept n hn hl := k.kept n (h.kept n hn hl) hl
  listed n hn hl ha := k.listed n (h.kept n hn hl) hl (h.listed n hn hl ha)

theorem Unlinked.numbered (h : Unlinked s t) (hs : s.Numbered) : t.Numbered := hs.sublist (h.sub.map _)

/-- Two notices of one id are one. -/
theorem State.Numbered.eq (hs : s.Numbered) {a b : Notice} (ha : a ∈ s.notices.table) (hb : b ∈ s.notices.table) (h : a.id = b.id) :
    a = b := by
  have one := findKey_of_mem Notice.id hs ha
  rw [h, findKey_of_mem Notice.id hs hb] at one
  exact (Option.some.inj one).symm

/-- Notices with a link freed. -/
theorem freeNotices_unlinked (hs : s.Numbered) {ids : List Nat} (h : ∀ i ∈ ids, ∃ n ∈ s.notices.table, n.id = i ∧ n.link ≠ none) :
    Unlinked s (freeNotices ids s) := by
  have out : ∀ n ∈ s.notices.table, n.link = none → (!ids.contains n.id) = true := fun n hn hl => by
    by_contra c
    obtain ⟨a, ha, hid, linked⟩ := h n.id (by simpa using c)
    exact linked (hs.eq ha hn hid ▸ hl)
  exact ⟨List.filter_sublist, fun n hn hl => List.mem_filter.2 ⟨hn, out n hn hl⟩,
    fun n hn hl ha => List.mem_filter.2 ⟨ha, out n hn hl⟩⟩

theorem judgeTakeover_unlinked (s : State) : Unlinked s (judgeTakeover s) := by
  have e := judgeTakeover_notices s
  constructor
  · rw [e]
  · intro n hn _
    rw [e]
    exact hn
  · intro n _ _ ha
    rw [e]
    exact ha

theorem retireNotices_unlinked (hs : s.Numbered) (g : Source) {ids : List Nat}
    (h : ∀ i ∈ ids, ∃ n ∈ s.notices.table, n.id = i ∧ n.link ≠ none) : Unlinked s (retireNotices g ids s) := by
  unfold retireNotices
  split
  · exact .refl s
  · have told : (raiseNotices g noticeRetired (anyOrder s.choice Source.notice ids) { s with choice := s.choice + ids.length }).notices =
        s.notices := raises_notices (fun _ => g) .noticeState (fun i => i) noticeRetired (anyOrder s.choice Source.notice ids)
      { s with choice := s.choice + ids.length }
    have raised := Unlinked.same told
    refine raised.trans ((freeNotices_unlinked (raised.numbered hs) ?_).trans (judgeTakeover_unlinked _))
    rw [told]
    exact h

theorem retireDelayed_unlinked (hs : s.Numbered) (g : Source) (i : Nat) : Unlinked s (retireDelayed g i s) := by
  unfold retireDelayed
  split
  next n hn =>
    refine retireNotices_unlinked hs g fun j hj => ⟨n, List.mem_of_find?_eq_some hn, (List.mem_singleton.1 hj).symm, ?_⟩
    have linked := List.find?_some hn
    simp only [Bool.and_eq_true, beq_iff_eq] at linked
    rw [linked.2]
    simp
  · exact .refl s

theorem retireLinked_unlinked (hs : s.Numbered) (i : Nat) : Unlinked s (retireLinked i s) := by
  refine retireNotices_unlinked hs _ fun j hj => ?_
  obtain ⟨n, hn, rfl⟩ := List.mem_map.1 hj
  obtain ⟨mem, linked⟩ := List.mem_filter.1 hn
  exact ⟨n, mem, rfl, by rw [beq_iff_eq.1 linked]; simp⟩

theorem transitionTo_unlinked (hs : s.Numbered) (i : Nat) (st : ShowState) : Unlinked s (transitionTo i st s) := by
  cases st with
  | planned => exact .same rfl
  | onSale => exact .same rfl
  | seating => exact .same rfl
  | started =>
    have entered : Unlinked s (enterState i .started s) := .same rfl
    exact entered.trans (retireDelayed_unlinked (entered.numbered hs) _ i)
  | closed => exact .same (endHolds_notices _ _ _ i _ _ (enterState i .closed s))
  | ended =>
    have entered : Unlinked s (enterState i .ended
      (s.modShowing i fun x => { x with purge := some (purgeAt (x.endMinute + s.life.linger)) })) := .same rfl
    exact entered.trans (retireLinked_unlinked (entered.numbered hs) i)
  | cancelled => exact .same rfl

theorem freeShowing_unlinked (hs : s.Numbered) (x : Showing) : Unlinked s (freeShowing x s) := by
  have told : Unlinked s (raise (.showing x.id) .showingFreed x.id x.state.code s) := .same rfl
  have retired := told.trans (retireLinked_unlinked (told.numbered hs) x.id)
  exact retired.trans (.same rfl)

theorem judgeShowing_unlinked (k i : Nat) (hs : s.Numbered) : Unlinked s (judgeShowing k i s) := by
  induction k generalizing s with
  | zero => exact .refl s
  | succ k ih =>
    unfold judgeShowing
    split
    · exact .refl s
    · split
      · exact .refl s
      next st _ =>
        have taken := transitionTo_unlinked hs i st
        exact taken.trans (ih (taken.numbered hs))
      · exact freeShowing_unlinked hs _

theorem judgeAll_unlinked (hs : s.Numbered) : Unlinked s (judgeAll s) := by
  have each : ∀ (ids : List Nat) (u : State), u.Numbered → Unlinked u (ids.foldl (fun t i => judgeShowing lifeSteps i t) u) := fun ids => by
    induction ids with
    | nil => exact fun u _ => .refl u
    | cons i l ih =>
      intro u hu
      have first := judgeShowing_unlinked lifeSteps i hu
      exact first.trans (ih _ (first.numbered hu))
  exact each _ s hs

/-! ### The Notice Unit's minute event -/

/-- A notice at a minute event at which it is not freed (R107). -/
def Notice.atMinute (m second : Nat) (n : Notice) : Notice := if n.activationDue m then n.activate m second else n

theorem Notice.atMinute_kept (m second : Nat) (n : Notice) :
    (n.atMinute m second).id = n.id ∧ (n.atMinute m second).link = n.link ∧ (n.atMinute m second).expiry = n.expiry := by
  unfold Notice.atMinute
  split <;> exact ⟨rfl, rfl, rfl⟩

theorem Notice.expiryDue_congr {a b : Notice} (h : a.expiry = b.expiry) (m : Nat) : a.expiryDue m = b.expiryDue m := by
  unfold Notice.expiryDue
  rw [h]

/-- What the Notice Unit's minute event leaves (R107, R108). -/
theorem noticeMinute_notices (source : Notice → Source) (s : State) :
    (noticeMinute source s).notices.table = ((s.notices.table.map (Notice.atMinute s.cal.m s.cal.second)).filter fun n =>
      !(((s.notices.table.map (Notice.atMinute s.cal.m s.cal.second)).filter (Notice.expiryDue s.cal.m)).map Notice.id).contains n.id) ∧
    (noticeMinute source s).notices.activation =
      (s.notices.activation ++ (s.notices.table.filter (Notice.activationDue s.cal.m)).map Notice.id).filter fun i =>
        !(((s.notices.table.map (Notice.atMinute s.cal.m s.cal.second)).filter (Notice.expiryDue s.cal.m)).map Notice.id).contains i := by
  have stored : ∀ (u : State) (ids : List Nat) (w : NoticeUnit), u.notices = w →
      (judgeTakeover (freeNotices ids (judgeTakeover u))).notices.table = w.table.filter (fun n => !ids.contains n.id) ∧
      (judgeTakeover (freeNotices ids (judgeTakeover u))).notices.activation = w.activation.filter fun i => !ids.contains i := by
    intro u ids w hw
    rw [judgeTakeover_notices]
    have inner := judgeTakeover_notices u
    rw [hw] at inner
    unfold freeNotices
    rw [inner]
    exact ⟨rfl, rfl⟩
  unfold noticeMinute
  exact stored _ _ _ ((raises_notices source .noticeState Notice.id noticeExpired _ _).trans
    (raises_notices source .noticeState Notice.id noticeActive _ _))

/-- The notices without a link after a minute event at m: one whose expiry minute is reached is freed, and any other has taken its
minute. -/
structure NoticesMinuted (m second : Nat) (s t : State) : Prop where
  numbered : t.Numbered
  freed : ∀ n ∈ s.notices.table, n.link = none → n.expiryDue m = true → ∀ x ∈ t.notices.table, x.id ≠ n.id
  kept : ∀ n ∈ s.notices.table, n.link = none → n.expiryDue m = false → n.atMinute m second ∈ t.notices.table
  listed : ∀ n ∈ s.notices.table, n.link = none → n.expiryDue m = false → n.activationDue m = true → n.id ∈ t.notices.activation

/-- The ids freed are those of the notices that are due. -/
theorem expired_contains (hs : s.Numbered) (m second : Nat) {n : Notice} (hn : n ∈ s.notices.table) :
    (((s.notices.table.map (Notice.atMinute m second)).filter (Notice.expiryDue m)).map Notice.id).contains n.id = n.expiryDue m := by
  rw [Bool.eq_iff_iff, List.contains_iff_mem, List.mem_map]
  constructor
  · rintro ⟨x, hx, hid⟩
    obtain ⟨mem, due⟩ := List.mem_filter.1 hx
    obtain ⟨a, ha, rfl⟩ := List.mem_map.1 mem
    obtain ⟨kept, -, expiry⟩ := a.atMinute_kept m second
    rw [Notice.expiryDue_congr expiry] at due
    rwa [← hs.eq ha hn (kept.symm.trans hid)]
  · intro due
    obtain ⟨kept, -, expiry⟩ := n.atMinute_kept m second
    exact ⟨n.atMinute m second, List.mem_filter.2 ⟨List.mem_map_of_mem hn, by rwa [Notice.expiryDue_congr expiry]⟩, kept⟩

theorem noticeMinute_minuted (source : Notice → Source) (hs : s.Numbered) :
    NoticesMinuted s.cal.m s.cal.second s (noticeMinute source s) := by
  obtain ⟨table, activation⟩ := noticeMinute_notices source s
  have ids : (s.notices.table.map (Notice.atMinute s.cal.m s.cal.second)).map Notice.id = s.notices.table.map Notice.id := by
    rw [List.map_map]
    exact List.map_congr_left fun n _ => (n.atMinute_kept _ _).1
  constructor
  · unfold State.Numbered
    rw [table]
    exact rising_filter Notice.id _ (by rw [ids]; exact hs)
  · intro n hn _ due x hx hid
    rw [table] at hx
    obtain ⟨-, out⟩ := List.mem_filter.1 hx
    rw [hid, expired_contains hs _ _ hn, due] at out
    cases out
  · intro n hn _ due
    rw [table]
    refine List.mem_filter.2 ⟨List.mem_map_of_mem hn, ?_⟩
    rw [(n.atMinute_kept _ _).1, expired_contains hs _ _ hn, due]
    rfl
  · intro n hn _ due active
    rw [activation]
    refine List.mem_filter.2 ⟨List.mem_append_right _ (List.mem_map_of_mem (List.mem_filter.2 ⟨hn, active⟩)), ?_⟩
    rw [expired_contains hs _ _ hn, due]
    rfl

theorem NoticesMinuted.before {m second : Nat} (h : Unlinked s t) (k : NoticesMinuted m second t u) : NoticesMinuted m second s u where
  numbered := k.numbered
  freed n hn hl := k.freed n (h.kept n hn hl) hl
  kept n hn hl := k.kept n (h.kept n hn hl) hl
  listed n hn hl := k.listed n (h.kept n hn hl) hl

theorem NoticesMinuted.after {m second : Nat} (h : NoticesMinuted m second s t) (k : Unlinked t u) : NoticesMinuted m second s u where
  numbered := k.numbered h.numbered
  freed n hn hl due x hx := h.freed n hn hl due x (k.sub.subset hx)
  kept n hn hl due := k.kept _ (h.kept n hn hl due) ((n.atMinute_kept m second).2.1.trans hl)
  listed n hn hl due active := by
    obtain ⟨hid, link, -⟩ := n.atMinute_kept m second
    have := k.listed _ (h.kept n hn hl due) (link.trans hl)
    rw [hid] at this
    exact this (h.listed n hn hl due active)

theorem deliverMinute_minuted (hs : s.Numbered) : NoticesMinuted s.cal.m s.cal.second s (deliverMinute s) := by
  have paced : ∀ v : State, NoticesMinuted s.cal.m s.cal.second s v → NoticesMinuted s.cal.m s.cal.second s (paceMinute v) :=
    fun v h => h.after (.same rfl)
  have judgedFirst : ∀ v : State, v.cal = s.cal → v.notices = s.notices →
      NoticesMinuted s.cal.m s.cal.second s (noticeMinute s.noticeSource (judgeAll v)) := fun v cal notices => by
    have stored : Unlinked s v := .same notices
    have judged := stored.trans (judgeAll_unlinked (stored.numbered hs))
    have noticed := noticeMinute_minuted s.noticeSource (judged.numbered hs)
    rw [(judgeAll_work v).frame.cal, cal] at noticed
    exact .before judged noticed
  unfold deliverMinute
  dsimp only
  split
  · refine paced _ ?_
    split
    · exact judgedFirst _ rfl rfl
    · have stored : Unlinked s { s with choice := s.choice + 1 } := .same rfl
      have noticed := noticeMinute_minuted s.noticeSource (stored.numbered hs)
      exact (noticed.before stored).after (judgeAll_unlinked noticed.numbered)
  · exact paced _ (judgedFirst s rfl rfl)

theorem minuteWithExpiry_minuted (hs : s.Numbered) : NoticesMinuted s.cal.m s.cal.second s (minuteWithExpiry s) := by
  have expiryFirst : ∀ v : State, v.cal = s.cal → v.notices = s.notices →
      NoticesMinuted s.cal.m s.cal.second s (deliverMinute (expireHolds s.expirySource v)) := fun v cal notices => by
    have ended : Unlinked s (expireHolds s.expirySource v) := .same ((expireHolds_notices _ v).trans notices)
    have minute := deliverMinute_minuted (ended.numbered hs)
    rw [(expireHolds_work _ v).frame.cal, cal] at minute
    exact minute.before ended
  unfold minuteWithExpiry
  dsimp only
  split
  · split
    · exact expiryFirst _ rfl rfl
    · have stored : Unlinked s { s with choice := s.choice + 1 } := .same rfl
      have minute := deliverMinute_minuted (stored.numbered hs)
      exact (minute.before stored).after (.same (expireHolds_notices _ _))
  · exact expiryFirst s rfl rfl

/-- A notice without a link read after a minute event (R107, R108). -/
theorem NoticesMinuted.read {m second : Nat} (h : NoticesMinuted m second s t) {n : Notice} (hn : n ∈ s.notices.table)
    (hl : n.link = none) :
    let waits := decide (n.state = .pending) && n.activation.elim false fun a => decide (m < a)
    ((∃ e, n.expiry = some e ∧ e ≤ m) → t.notice? n.id = none) ∧
    ((∀ e, n.expiry = some e → m < e) → (n.state = .active ∨ waits = true) → t.notice? n.id = some n) ∧
    ((∀ e, n.expiry = some e → m < e) → n.state = .pending → waits = false →
      t.notice? n.id = some { n with
        state := .active
        instant := some { m, second }
        position := n.flash.map fun _ => 0 } ∧
      n.id ∈ t.notices.activation) := by
  intro waits
  have stays : (∀ e, n.expiry = some e → m < e) → n.expiryDue m = false := fun ahead => by
    unfold Notice.expiryDue
    cases he : n.expiry with
    | none => rfl
    | some e => exact decide_eq_false (Nat.not_le.2 (ahead e he))
  have found : n.expiryDue m = false → t.notice? n.id = some (n.atMinute m second) := fun due => by
    have here := findKey_of_mem Notice.id h.numbered (h.kept n hn hl due)
    rw [(n.atMinute_kept m second).1] at here
    exact here
  have active : n.activationDue m = true ↔ n.state = .pending ∧ waits = false := by
    simp only [waits, Notice.activationDue]
    cases n.state <;> cases n.activation <;> simp
  refine ⟨fun ⟨e, he, le⟩ => ?_, fun ahead state => ?_, fun ahead pending due => ?_⟩
  · refine List.find?_eq_none.2 fun x hx => ?_
    have due : n.expiryDue m = true := by
      unfold Notice.expiryDue
      rw [he]
      exact decide_eq_true le
    simpa using h.freed n hn hl due x hx
  · rw [found (stays ahead)]
    refine congrArg some (if_neg fun k => ?_)
    obtain ⟨pending, past⟩ := active.1 k
    rcases state with state | state
    · rw [pending] at state
      cases state
    · rw [past] at state
      cases state
  · have taken := active.2 ⟨pending, due⟩
    refine ⟨?_, h.listed n hn hl (stays ahead) taken⟩
    rw [found (stays ahead)]
    exact congrArg some (if_pos taken)

end Sys2Proof.Machine
end

section
/-! PROOFS about the minute event of the calendar, and with it of the board (R3, R6, R11). -/

namespace Sys2Proof.Machine

variable {s t u : State}

/-! ### The calendar's part -/

/-- The lobby closes at the wall minute (R11). -/
def Calendar.closes (c : Calendar) : Bool := decide (c.openMin ≠ c.closeMin ∧ c.wall = c.closeMin)

/-- The lobby opens at the wall minute (R11). -/
def Calendar.opens (c : Calendar) : Bool := decide (c.openMin ≠ c.closeMin ∧ c.wall = c.openMin)

/-- HUSH and WAKE after the crossings of a minute (R11). -/
def Calendar.crossed (c : Calendar) : Calendar := { c with hush := c.closes || (c.hush && !c.opens), wake := c.wake && !c.closes }

theorem Calendar.crossed_at {c : Calendar} {w : Nat} (h : c.wall = w) : c.crossed = { c with
    hush := decide (c.openMin ≠ c.closeMin ∧ w = c.closeMin) || (c.hush && !decide (c.openMin ≠ c.closeMin ∧ w = c.openMin))
    wake := c.wake && !decide (c.openMin ≠ c.closeMin ∧ w = c.closeMin) } := by
  subst h
  rfl

/-- D0 after the day-start test of a minute (R6). -/
def Calendar.dawned (c : Calendar) : Calendar := { c with d0 := if c.m % 1440 = 60 * c.h0 then (c.m : Int) else c.d0 }

theorem lobbyCrossing_frame (s : State) : DayFrame { s with cal := s.cal.crossed } (lobbyCrossing s) := by
  unfold lobbyCrossing
  dsimp only
  split
  next never =>
    have shut : s.cal.closes = false := decide_eq_false fun k => k.1 never
    have lit : s.cal.opens = false := decide_eq_false fun k => k.1 never
    have still : s.cal.crossed = s.cal := by simp [Calendar.crossed, shut, lit]
    rw [still]
    exact .refl s
  next hours =>
    split
    next closes =>
      have shut : s.cal.crossed = { s.cal with hush := true, wake := false } := by
        simp [Calendar.crossed, Calendar.closes, hours, closes]
      rw [shut]
      exact (setHushWake_frame true false s).frame
    next stays =>
      split
      next opens =>
        have lit : s.cal.crossed = { s.cal with hush := false, wake := s.cal.wake } := by
          simp [Calendar.crossed, Calendar.closes, Calendar.opens, hours, opens]
        rw [lit]
        exact (setHushWake_frame false s.cal.wake s).frame
      next same =>
        have still : s.cal.crossed = s.cal := by simp [Calendar.crossed, Calendar.closes, Calendar.opens, stays, same]
        rw [still]
        exact .refl s

theorem dayStartTest_frame (s : State) : DayFrame { s with cal := s.cal.dawned } (dayStartTest s) := by
  unfold dayStartTest Calendar.dawned
  split
  · exact (DayWork.raise .calendar .dayStart 0 s.cal.weekday { s with cal := { s.cal with d0 := (s.cal.m : Int) } }).frame
  · exact .refl s

theorem calendarMinute_frame (s : State) : DayFrame { s with cal := s.cal.dawned.crossed } (calendarMinute s) := by
  have dawn := dayStartTest_frame s
  have cross := lobbyCrossing_frame (dayStartTest s)
  rw [dawn.cal] at cross
  generalize hd : dayStartTest s = d at dawn cross
  have both : DayFrame { s with cal := s.cal.dawned.crossed } { d with cal := s.cal.dawned.crossed } := by
    unfold DayFrame at dawn ⊢
    rw [dawn]
  unfold calendarMinute
  rw [hd]
  exact both.trans cross

theorem calendarMinute_dayStarts (s : State) : (calendarMinute s).dayStarts = s.dayStarts ++
    if s.cal.m % 1440 = 60 * s.cal.h0 then
      [{ kind := .dayStart, m := s.cal.m, second := s.cal.second, subject := .board, number := 0, detail := s.cal.weekday }]
    else [] := by
  have crossing : NoDayStart (dayStartTest s) (calendarMinute s) := by
    unfold calendarMinute lobbyCrossing
    dsimp only
    split
    · exact .refl _
    · split
      · exact setHushWake_noDayStart _ _ _
      · split
        · exact setHushWake_noDayStart _ _ _
        · exact .refl _
  refine Eq.trans crossing ?_
  unfold dayStartTest
  split
  · exact dayStarts_raise .calendar .dayStart 0 s.cal.weekday { s with cal := { s.cal with d0 := (s.cal.m : Int) } }
  · exact (List.append_nil _).symm

/-! ### The second event that carries -/

theorem watchSecond_only (s : State) : ∃ w ob, watchSecond s = { s with watch := w, outbox := ob } := by
  unfold watchSecond
  split
  · exact ⟨_, _, rfl⟩
  · split <;> exact ⟨_, _, rfl⟩

/-- What the tail of a second event leaves: the records of the showings, the holds and the notices, and the calendar. -/
theorem secondTail_only (hs : s.Settled) (u : State) : ∃ w ps j q c, secondTail u =
    { u with watch := w, panels := ps, journal := j, queues := q, choice := c, outbox := s.outbox, journalBox := s.journalBox } := by
  obtain ⟨w, ob, e⟩ := watchSecond_only u
  obtain ⟨j, q, c, beside, -⟩ := settle_beside hs { watchSecond u with panels := (watchSecond u).panels.map Panel.second }
  refine ⟨w, u.panels.map Panel.second, j, q, c, ?_⟩
  unfold secondTail
  rw [beside, e]

theorem secondTail_dayStarts (u : State) (h : u.dayStarts.length ≤ 1) : ∃ l : List EventRecord,
    (secondTail u).queues = l.foldl (offerAll u.ports) u.queues ∧ l.filter (fun r => decide (r.kind = .dayStart)) = u.dayStarts := by
  have same : State.dayStarts { watchSecond u with panels := (watchSecond u).panels.map Panel.second } = u.dayStarts :=
    watchSecond_noDayStart u
  obtain ⟨l, queues, records⟩ := settle_dayStarts { watchSecond u with panels := (watchSecond u).panels.map Panel.second }
    (by rw [same]; exact h)
  obtain ⟨w, ob, e⟩ := watchSecond_only u
  refine ⟨l, ?_, records.trans same⟩
  unfold secondTail
  rw [queues, e]

/-! ### The obligation -/

/-- A second event that carries into a new minute, by any of its names. -/
theorem exec_minute {c : Instr} (hc : s.cal.clock = .running) (hsec : s.cal.second = 59)
    (h : c = .minuteEvent ∨ c = .secondEvent ∨ (c = .midnightEvent ∧ s.cal.hour = 23 ∧ s.cal.minute = 59)) :
    exec c s = .next (secondEvent s) := by
  obtain rfl | rfl | ⟨rfl, hour, minute⟩ := h
  · exact congrArg Host.Outcome.next (if_pos ⟨hc, hsec.ge⟩)
  · rfl
  · exact congrArg Host.Outcome.next (if_pos ⟨hc, hour, minute, hsec.ge⟩)

/-- The calendar once a carry has counted (R1, R3). -/
def Calendar.minuteOn (c : Calendar) : Calendar := { c.nextMinute with m := c.m + 1 }

/-- A second event that carries: the calendar's minute, then the minute event with the holds that run out. -/
theorem secondEvent_minute (hr : s.rstn = .released) (hsec : s.cal.second = 59) (hc : s.cal.clock = .running) (hh : s.cal.held = false)
    (hm : s.cal.m < 1048575) :
    secondEvent s = secondTail (minuteWithExpiry (calendarMinute (countDown { s with cal := s.cal.minuteOn }))) :=
  secondEvent_released hr (Calendar.tick_minute hsec hc hh hm)

/-- What a second event that carries makes of the board (R1, R3, R6, R11). -/
theorem minuteEvent_reads (hs : s.Settled) : ∃ t : State,
    secondTail (minuteWithExpiry (calendarMinute (countDown { s with cal := s.cal.minuteOn }))) = t ∧
    t.cal = s.cal.minuteOn.dawned.crossed ∧ t.Zeroed ∧
    (s.Seated → Shown (Showing.FreedAt s.life s.cal.minuteOn.m)
      (fun x y => x.MinuteTo s.life s.cal.minuteOn.m (∀ h ∈ s.holds, h.showing = x.id → 2 ≤ h.remaining) y) s t) ∧
    (∃ l : List EventRecord, t.queues = l.foldl (offerAll s.ports) s.queues ∧ l.filter (fun r => decide (r.kind = .dayStart)) =
      if s.cal.minuteOn.m % 1440 = 60 * s.cal.minuteOn.h0 then
        [{ kind := .dayStart, m := s.cal.minuteOn.m, second := s.cal.minuteOn.second, subject := .board, number := 0,
           detail := s.cal.minuteOn.weekday }]
      else []) ∧
    (s.Noticed → NoticesMinuted s.cal.minuteOn.m s.cal.minuteOn.second s t) ∧
    t = { s with
      cal := t.cal
      showings := t.showings
      holds := t.holds
      watch := t.watch
      journal := t.journal
      notices := t.notices
      carousels := t.carousels
      plays := t.plays
      panels := t.panels
      queues := t.queues
      choice := t.choice } := by
  generalize hc : s.cal.minuteOn = c
  have frame := calendarMinute_frame (countDown { s with cal := c })
  have aside := calendarMinute_aside (countDown { s with cal := c })
  have raised := calendarMinute_dayStarts (countDown { s with cal := c })
  have none : State.dayStarts (countDown { s with cal := c }) = [] := by
    unfold State.dayStarts
    rw [show (countDown { s with cal := c }).outbox = [] from hs.1]
    rfl
  rw [none, List.nil_append] at raised
  have seated : s.Seated → (calendarMinute (countDown { s with cal := c })).SeatedBut noSpare := fun h =>
    (countDown_seated (s := { s with cal := c }) (((seatedBut_none s).2 h).frame rfl rfl)).frame aside.showings aside.holds
  generalize calendarMinute (countDown { s with cal := c }) = v at frame aside raised seated
  have cal : v.cal = c.dawned.crossed := frame.cal
  have work := (minuteWithExpiry_work v).frame
  have zeroed := minuteWithExpiry_zeroed v
  have shown := fun h => minuteWithExpiry_shown (quiet := fun x => ∀ h ∈ s.holds, h.showing = x.id → 2 ≤ h.remaining) (seated h)
    (fun x q => by
      rintro ⟨h, hh, named⟩
      obtain ⟨mem, zero⟩ := List.mem_filter.1 hh
      rw [aside.holds] at mem
      obtain ⟨a, ha, rfl⟩ := List.mem_map.1 mem
      have := q a ha named
      simp only [beq_iff_eq] at zero
      omega)
  have noticed := fun h : v.Numbered => minuteWithExpiry_minuted h
  have dayStarts := minuteWithExpiry_noDayStart v
  generalize minuteWithExpiry v = u at work zeroed shown noticed dayStarts
  rw [frame.life, cal] at shown
  rw [cal] at noticed
  have raised : u.dayStarts = _ := Eq.trans dayStarts raised
  have few : u.dayStarts.length ≤ 1 := by
    rw [raised]
    split <;> simp
  obtain ⟨l, queues, records⟩ := secondTail_dayStarts u few
  obtain ⟨w, ps, j, q, k, only⟩ := secondTail_only hs u
  refine ⟨_, rfl, ?_, ?_, fun h => ?_, ⟨l, ?_, records.trans raised⟩, fun h => ?_, ?_⟩
  · rw [only, work.cal, cal]
  · rw [only]
    exact zeroed
  · exact (shown h).congr aside.showings.symm (by rw [only])
  · rw [queues, work.queues, work.ports, frame.queues, frame.ports]
    rfl
  · have same : Unlinked s v := .same aside.notices
    exact ((noticed (same.numbered h.table)).before same).after (.same (by rw [only]))
  · rw [only, work, frame]
    rfl

/-- Settles O14: the calendar by `Calendar.crossed_at`, the rest of the board by `minuteEvent_reads`. -/
theorem minuteEventAdvancesTheBoardMinute : Obligations.MinuteEventAdvancesTheBoardMinute := by
  unfold Obligations.MinuteEventAdvancesTheBoardMinute
  intro c s hr hs hd hc hh hm hsec hcmd
  dsimp only
  obtain ⟨t, ended, cal, zeroed, shown, day, noticed, frame⟩ := minuteEvent_reads hs
  have later := Calendar.nextMinute_eq hd.hour hd.minute
  have run : exec c s = .next t := by
    rw [exec_minute hc hsec hcmd, secondEvent_minute hr hsec hc hh hm, ended]
  have on : s.cal.minuteOn = { s.cal with
      year := s.cal.laterDate.1, month := s.cal.laterDate.2.1, day := s.cal.laterDate.2.2
      hour := (s.cal.wall + 1) % 1440 / 60, minute := (s.cal.wall + 1) % 1440 % 60, second := 0, m := s.cal.m + 1 } := by
    unfold Calendar.minuteOn
    rw [later]
  rw [on] at cal shown day noticed
  refine ⟨t, run, ?_, zeroed, fun h => ?_, day, fun h n hn hl => (noticed h).read hn hl, frame⟩
  · rw [cal]
    have wall : (s.cal.wall + 1) % 1440 / 60 * 60 + (s.cal.wall + 1) % 1440 % 60 = (s.cal.wall + 1) % 1440 := Nat.div_add_mod' _ 60
    exact Calendar.crossed_at wall
  · obtain ⟨freed, live, old⟩ := (shown h).table h.showings
    exact ⟨freed, live, old⟩

end Sys2Proof.Machine
end

section
/-! PROOFS about SET TIME (R7 to R10): the first set, the forward jump with its minute event, and the backward set. -/

namespace Sys2Proof.Machine

variable {s t u : State}

/-! ### HUSH and WAKE set -/

theorem setHushWake_only (hush wake : Bool) (s : State) : ∃ cs ps qs ob, setHushWake hush wake s = { s with
    cal := { s.cal with hush, wake }, carousels := cs, plays := ps, panels := qs, outbox := ob } := by
  by_cases h : s.cal.hush = hush ∧ s.cal.wake = wake
  · obtain ⟨rfl, rfl⟩ := h
    exact ⟨_, _, _, _, setHushWake_same rfl rfl⟩
  · obtain ⟨cs, ps, qs, e⟩ := setHushWake_changed h
    exact ⟨cs, ps, qs, _, e⟩

/-! ### The checks and the board minutes -/

theorem timeRefusal_running {f : TimeFields} (hf : realInstant f = true) (hh : s.cal.held = false) (hc : s.cal.clock = .running)
    (h1 : -10080 ≤ s.cal.delta f) (h2 : s.cal.delta f ≤ 10080) (h3 : 0 ≤ (s.cal.m : Int) + s.cal.delta f)
    (h4 : (s.cal.m : Int) + s.cal.delta f ≤ 1048575) : s.timeRefusal f = none := by
  have limit : (Config.limitM : Int) = 1048575 := rfl
  unfold State.timeRefusal
  rw [if_neg (by simp [hf]), if_neg (by simp [hh]), hc]
  exact if_neg (by rw [limit]; omega)

theorem timeRefusal_unset {f : TimeFields} (hf : realInstant f = true) (hh : s.cal.held = false) (hc : s.cal.clock = .unset) :
    s.timeRefusal f = none := by
  unfold State.timeRefusal
  rw [if_neg (by simp [hf]), if_neg (by simp [hh]), hc]

/-- R9: a span holds a minute of a wall minute where the count of such minutes rises over it. -/
theorem spanContains_iff {old new wall : Nat} (h : wall ≤ 1439) :
    spanContains old new wall = true ↔ ∃ k, old < k ∧ k ≤ new ∧ k % 1440 = wall := by
  unfold spanContains
  rw [decide_eq_true_iff]
  constructor
  · intro rises
    exact ⟨(new + 1440 - wall) / 1440 * 1440 - 1440 + wall, by omega, by omega, by omega⟩
  · rintro ⟨k, above, below, wall⟩
    omega

/-- R9: the business day at m began on the date of m, or on the one before it where m lies before the day start. -/
theorem businessBase_day {m h0 : Nat} (h : h0 ≤ 23) :
    (((m / 1440 : Nat) : Int) - businessBase m h0 / 1440).toNat = if 60 * h0 ≤ m % 1440 then 0 else 1 := by
  unfold businessBase
  split
  · split <;> omega
  · rw [if_neg (by omega)]
    omega

theorem weekday_bounds (c : Calendar) : 1 ≤ c.weekday ∧ c.weekday ≤ 7 := by
  unfold Calendar.weekday weekdayOf
  omega

theorem weekdayBack_eq {w : Nat} (h : 1 ≤ w ∧ w ≤ 7) (p : Prop) [Decidable p] :
    weekdayBack w (if p then 0 else 1) = if p then w else if w = 1 then 7 else w - 1 := by
  unfold weekdayBack
  split
  · omega
  · split <;> omega

/-! ### The forward jump -/

/-- The calendar that a later SET TIME writes, HUSH and WAKE apart (R9, R10). -/
def Calendar.movedTo (f : TimeFields) (c : Calendar) : Calendar :=
  { c.setInstant f with m := ((c.m : Int) + c.delta f).toNat, d0 := businessBase ((c.m : Int) + c.delta f).toNat c.h0 }

/-- A forward jump clears WAKE (R9). -/
def Calendar.shuts (f : TimeFields) (c : Calendar) : Bool :=
  decide (c.openMin ≠ c.closeMin) && spanContains c.m (c.movedTo f).m c.closeMin

/-- A forward jump before HUSH and WAKE are set: its minute event and its DAY START (R9). -/
def State.jumped (f : TimeFields) (s : State) : State :=
  if s.cal.d0 < (s.cal.movedTo f).d0 then
    raise .calendar .dayStart 0
      (weekdayBack (s.cal.setInstant f).weekday ((((s.cal.movedTo f).m / 1440 : Nat) : Int) - (s.cal.movedTo f).d0 / 1440).toNat)
      (deliverMinute { s with cal := s.cal.movedTo f })
  else deliverMinute { s with cal := s.cal.movedTo f }

theorem forwardJump_eq (f : TimeFields) (s : State) : forwardJump f s =
    setHushWake ((s.jumped f).cal.closedAt (s.cal.setInstant f).wall) (s.cal.wake && !s.cal.shuts f) (s.jumped f) := rfl

theorem jumped_raises (f : TimeFields) (s : State) : ∃ ob, s.jumped f = { deliverMinute { s with cal := s.cal.movedTo f } with outbox := ob } := by
  unfold State.jumped
  split <;> exact ⟨_, rfl⟩

theorem jumped_dayStarts (f : TimeFields) (h0 : s.cal.h0 ≤ 23) (hs : s.Settled) : (s.jumped f).dayStarts =
    if s.cal.d0 < (s.cal.movedTo f).d0 then
      [{ kind := .dayStart, m := (s.cal.movedTo f).m, second := f.second.toNat, subject := .board, number := 0,
         detail := if 60 * s.cal.h0 ≤ (s.cal.movedTo f).m % 1440 then (s.cal.setInstant f).weekday
           else if (s.cal.setInstant f).weekday = 1 then 7 else (s.cal.setInstant f).weekday - 1 }]
    else [] := by
  have delivered : (deliverMinute { s with cal := s.cal.movedTo f }).dayStarts = [] := by
    refine Eq.trans (deliverMinute_noDayStart { s with cal := s.cal.movedTo f }) ?_
    unfold State.dayStarts
    rw [hs.1]
    rfl
  have cal : (deliverMinute { s with cal := s.cal.movedTo f }).cal = s.cal.movedTo f := (deliverMinute_work _).frame.cal
  have day := businessBase_day (m := (s.cal.movedTo f).m) h0
  unfold State.jumped
  split
  · rw [dayStarts_raise, delivered, List.nil_append, if_pos rfl]
    have base : (s.cal.movedTo f).d0 = businessBase (s.cal.movedTo f).m s.cal.h0 := rfl
    rw [base, day, weekdayBack_eq (weekday_bounds _)]
    unfold State.record
    rw [cal]
    rfl
  · exact delivered

/-- What a forward jump makes of the board (R9). -/
theorem forwardJump_reads (f : TimeFields) (h0 : s.cal.h0 ≤ 23) (hs : s.Settled) : ∃ u : State, settle (forwardJump f s) = u ∧
    (forwardJump f s).cal = u.cal ∧
    u.cal = { s.cal.movedTo f with
      hush := lobbyClosed s.cal.openMin s.cal.closeMin (s.cal.setInstant f).wall, wake := s.cal.wake && !s.cal.shuts f } ∧ u.Zeroed ∧
    (s.SeatedBut noSpare → Shown (Showing.FreedAt s.life (s.cal.movedTo f).m) (Showing.MinuteTo s.life (s.cal.movedTo f).m True) s u) ∧
    (∃ l : List EventRecord, u.queues = l.foldl (offerAll s.ports) s.queues ∧ l.filter (fun r => decide (r.kind = .dayStart)) =
      if s.cal.d0 < (s.cal.movedTo f).d0 then
        [{ kind := .dayStart, m := (s.cal.movedTo f).m, second := f.second.toNat, subject := .board, number := 0,
           detail := if 60 * s.cal.h0 ≤ (s.cal.movedTo f).m % 1440 then (s.cal.setInstant f).weekday
             else if (s.cal.setInstant f).weekday = 1 then 7 else (s.cal.setInstant f).weekday - 1 }]
      else []) ∧
    (s.Numbered → NoticesMinuted (s.cal.movedTo f).m f.second.toNat s u) ∧
    u = { s with
      cal := u.cal
      showings := u.showings
      holds := u.holds
      journal := u.journal
      notices := u.notices
      carousels := u.carousels
      plays := u.plays
      panels := u.panels
      queues := u.queues
      choice := u.choice } := by
  obtain ⟨c, hc⟩ : ∃ c, c = s.cal.movedTo f := ⟨_, rfl⟩
  have shown := fun h : s.SeatedBut noSpare => deliverMinute_shown (s := { s with cal := c }) (h.frame rfl rfl)
  have zeroed := deliverMinute_zeroed { s with cal := c }
  have work := (deliverMinute_work { s with cal := c }).frame
  have minuted := fun h : s.Numbered => deliverMinute_minuted (s := { s with cal := c }) h
  have raised := jumped_dayStarts f h0 hs
  obtain ⟨ob, told⟩ := jumped_raises f s
  have jump := forwardJump_eq f s
  rw [← hc] at raised told ⊢
  generalize deliverMinute { s with cal := c } = v at shown zeroed work minuted told
  generalize s.jumped f = w at raised told jump
  have cal : w.cal = c := by rw [told, work.cal]
  have same : NoDayStart w (forwardJump f s) := by
    rw [jump]
    exact setHushWake_noDayStart _ _ w
  obtain ⟨cs, ps, qs, ob', only⟩ := setHushWake_only (w.cal.closedAt (s.cal.setInstant f).wall) (s.cal.wake && !s.cal.shuts f) w
  rw [← jump] at only
  generalize forwardJump f s = x at only same jump
  have raised : x.dayStarts = _ := Eq.trans same raised
  have few : x.dayStarts.length ≤ 1 := by
    rw [raised]
    split <;> simp
  obtain ⟨l, queues, records⟩ := settle_dayStarts x few
  obtain ⟨j, q, k, beside, -⟩ := settle_beside hs x
  have final : x.cal = { c with
      hush := lobbyClosed s.cal.openMin s.cal.closeMin (s.cal.setInstant f).wall, wake := s.cal.wake && !s.cal.shuts f } := by
    rw [only, cal, hc]
    rfl
  refine ⟨settle x, rfl, rfl, final, ?_, fun h => ?_, ⟨l, ?_, records.trans raised⟩, fun h => ?_, ?_⟩
  · have showings : (settle x).showings = v.showings := by rw [beside, only, told]
    unfold State.Zeroed
    rw [showings]
    exact zeroed
  · exact (shown h).congr rfl (by rw [beside, only, told])
  · rw [queues, only, told, work]
  · have second : c.second = f.second.toNat := by rw [hc]; rfl
    rw [← second]
    have ended : Unlinked v (settle x) := .same (by rw [beside, only, told])
    have stored : Unlinked s { s with cal := c } := .same rfl
    exact ((minuted h).before stored).after ended
  · rw [beside, only, told, work]

/-! ### The sets without a minute event -/

/-- HUSH and WAKE set once the calendar has been written, and the arrival ended. -/
theorem settle_written (hs : s.Settled) (c : Calendar) (hush wake : Bool) : ∃ cs ps qs q k,
    (setHushWake hush wake { s with cal := c }).cal = { c with hush, wake } ∧
    settle (setHushWake hush wake { s with cal := c }) =
      { s with cal := { c with hush, wake }, carousels := cs, plays := ps, panels := qs, queues := q, choice := k } := by
  obtain ⟨cs, ps, qs, ob, only⟩ := setHushWake_only hush wake { s with cal := c }
  obtain ⟨j, q, k, beside, journal⟩ := settle_beside hs (setHushWake hush wake { s with cal := c })
  refine ⟨cs, ps, qs, q, k, by rw [only], ?_⟩
  rw [beside, journal (by rw [only]; exact hs.2), only]

/-- SET TIME carried out while the clock is UNSET (R8). -/
theorem setTime_first {f : TimeFields} (hr : s.timeRefusal f = none) (hc : s.cal.clock = .unset) :
    setTime f s = (done false (u24 (firstSet f s).cal.m ++ [0, 0, 0]), firstSet f s) := by
  unfold setTime
  rw [hr, hc]
  rfl

/-- One while it runs (R9, R10). -/
theorem setTime_later {f : TimeFields} (hr : s.timeRefusal f = none) (hc : s.cal.clock = .running) {u : State}
    (hu : u = if 0 < s.cal.delta f then forwardJump f s else backwardSet f s) :
    setTime f s = (done false (u24 u.cal.m ++ s24 (s.cal.delta f)), u) := by
  unfold setTime
  rw [hr, hc, hu]

/-- The calendar that the first SET TIME writes, HUSH apart (R8). -/
def Calendar.startedAt (f : TimeFields) (c : Calendar) : Calendar :=
  { c.setInstant f with
    clock := .running, m := 1440 + (c.setInstant f).wall, d0 := businessBase (1440 + (c.setInstant f).wall) c.h0 }

theorem firstSet_eq (f : TimeFields) (s : State) : firstSet f s =
    setHushWake (lobbyClosed s.cal.openMin s.cal.closeMin (s.cal.setInstant f).wall) s.cal.wake { s with cal := s.cal.startedAt f } := rfl

theorem backwardSet_eq (f : TimeFields) (s : State) : backwardSet f s =
    setHushWake (lobbyClosed s.cal.openMin s.cal.closeMin (s.cal.setInstant f).wall) s.cal.wake { s with cal := s.cal.movedTo f } := rfl

theorem setInstant_wall (f : TimeFields) (c : Calendar) : (c.setInstant f).wall = 60 * f.hour.toNat + f.minute.toNat := by
  show f.hour.toNat * 60 + f.minute.toNat = _
  omega

/-- Settles O16: the calendar is written and settled by `settle_written`, the forward jump by `forwardJump_reads`. -/
theorem setTimeSetsTheBoardMinute : Obligations.SetTimeSetsTheBoardMinute := by
  unfold Obligations.SetTimeSetsTheBoardMinute
  refine ⟨fun t f s ht hf hh hc => ?first, fun t f s ht hg hf hh hc d1 d2 d3 d4 => ?later⟩ <;> obtain settled := ht.settled <;>
    have cal := heard_cal t 9 settled <;> have quiet := heard_settled t 9 settled
  case first =>
    have body := setTime_first (s := heard t 9 s) (timeRefusal_unset hf (by rw [cal]; exact hh) (by rw [cal]; exact hc))
      (by rw [cal]; exact hc)
    have form := firstSet_eq f (heard t 9 s)
    rw [cal] at form
    obtain ⟨cs, ps, qs, q, k, written, ended⟩ := settle_written quiet (s.cal.startedAt f)
      (lobbyClosed s.cal.openMin s.cal.closeMin (s.cal.setInstant f).wall) s.cal.wake
    rw [← form] at written ended
    have m : (firstSet f (heard t 9 s)).cal.m = 1440 + (60 * f.hour.toNat + f.minute.toNat) := by
      rw [written, ← setInstant_wall f s.cal]
      rfl
    rw [m] at body
    refine ⟨settle (firstSet f (heard t 9 s)), request_ends ht 9 10 body, ?_, ?_⟩
    · rw [ended, ← setInstant_wall f s.cal]
      rfl
    · rw [ended]
  case later =>
    have refusal : (heard t 9 s).timeRefusal f = none := by
      apply timeRefusal_running hf <;> rw [cal] <;> assumption
    have body := setTime_later (s := heard t 9 s) refusal (by rw [cal]; exact hc) rfl
    rw [cal] at body
    by_cases ahead : 0 < s.cal.delta f
    · rw [if_pos ahead] at body
      obtain ⟨u, ended, same, calendar, zeroed, shown, day, minuted, frame⟩ :=
        forwardJump_reads f (s := heard t 9 s) (by rw [cal]; exact hg.h0) quiet
      rw [cal] at calendar shown day minuted
      have m : (forwardJump f (heard t 9 s)).cal.m = (s.cal.movedTo f).m := by rw [same, calendar]
      rw [m] at body
      have run := request_ends ht 9 10 body
      rw [ended] at run
      refine ⟨u, run, ?_, fun _ => ⟨zeroed, fun h => ?_, ?_, fun h n hn hl => ?_, ?_, frame⟩, fun k => absurd ahead (by omega)⟩
      · rw [calendar, setInstant_wall]
        rfl
      · have seated : (heard t 9 s).SeatedBut noSpare :=
          ((seatedBut_none s).2 h).frame (heard_showings t 9 settled) (heard_holds t 9 settled)
        have all := (shown seated).congr (s' := s) (heard_showings t 9 settled).symm rfl
        rw [heard_life t 9 settled] at all
        obtain ⟨freed, live, old⟩ := all.table h.showings
        exact ⟨freed, live, old⟩
      · obtain ⟨l, queues, records⟩ := day
        refine ⟨l, ?_, ?_⟩
        · rw [queues]
          exact congrArg (fun g => List.foldl g _ l) (funext fun q => funext fun r => offerAll_role (heard_role t 9 settled) q r)
        · rw [records, calendar]
          rfl
      · have numbered : (heard t 9 s).Numbered := by
          unfold State.Numbered
          rw [heard_notices t 9 settled]
          exact h.table
        have unlinked : Unlinked s (heard t 9 s) := .same (heard_notices t 9 settled)
        exact ((minuted numbered).before unlinked).read hn hl
      · rw [calendar]
        have span := spanContains_iff (old := s.cal.m) (new := (s.cal.movedTo f).m) hg.hours.2
        show (s.cal.wake && !(decide (s.cal.openMin ≠ s.cal.closeMin) && spanContains s.cal.m (s.cal.movedTo f).m s.cal.closeMin)) = true ↔ _
        rw [Bool.and_eq_true, Bool.not_eq_true', ← Bool.not_eq_true, Bool.and_eq_true, decide_eq_true_iff, span]
        rfl
    · rw [if_neg ahead] at body
      have form := backwardSet_eq f (heard t 9 s)
      rw [cal] at form
      obtain ⟨cs, ps, qs, q, k, written, ended⟩ := settle_written quiet (s.cal.movedTo f)
        (lobbyClosed s.cal.openMin s.cal.closeMin (s.cal.setInstant f).wall) s.cal.wake
      rw [← form] at written ended
      have m : (backwardSet f (heard t 9 s)).cal.m = (s.cal.movedTo f).m := by rw [written]
      rw [m] at body
      refine ⟨settle (backwardSet f (heard t 9 s)), request_ends ht 9 10 body, ?_, fun k => absurd k ahead, fun _ => ⟨?_, ?_⟩⟩
      · rw [ended, setInstant_wall]
        rfl
      · rw [ended]
      · rw [ended]

end Sys2Proof.Machine
end

section
/-! PROOFS about the showings at a SET BOARD (R46, R85, R96): the bands recomputed, and the purge deadlines moved and the records judged. -/

namespace Sys2Proof.Machine

variable {s t u : State} {life : LifeSettings} {m : Nat}

/-! ### The bands -/

/-- A record with its band recomputed (R88, R96). -/
def Showing.banded (g : FigureSettings) (x : Showing) : Showing := { x with band := x.nextBand g }

theorem recomputeBand_only (source : Nat → Source) (s : State) (i : Nat) : OnlyShowings s (recomputeBand source s i) := by
  unfold recomputeBand
  split
  · exact .refl s
  · dsimp only
    split
    · exact .refl s
    · exact ⟨_, _, rfl⟩

theorem recomputeBand_showings (source : Nat → Source) (hs : Rising (s.showings.map Showing.id)) (i : Nat) :
    (recomputeBand source s i).showings = s.showings.map fun y => if y.id = i then y.banded s.figure else y := by
  have one : ∀ x, s.showing? i = some x → ∀ y ∈ s.showings, y.id = i → y = x := fun x hx y hy hid => by
    have found := State.showing?_mem hs hy
    rw [hid, hx] at found
    exact (Option.some.inj found).symm
  unfold recomputeBand
  cases hx : s.showing? i with
  | none =>
    have same : ∀ y ∈ s.showings, (if y.id = i then y.banded s.figure else y) = y := fun y hy => if_neg fun hid => by
      have found := State.showing?_mem hs hy
      rw [hid, hx] at found
      cases found
    exact (List.map_congr_left same).symm ▸ (List.map_id _).symm
  | some x =>
    dsimp only
    split
    next still =>
      have same : ∀ y ∈ s.showings, (if y.id = i then y.banded s.figure else y) = y := fun y hy => by
        split
        next hid =>
          rw [one x hx y hy hid]
          unfold Showing.banded
          rw [still]
        · rfl
      exact (List.map_congr_left same).symm ▸ (List.map_id _).symm
    · refine List.map_congr_left fun y hy => ?_
      dsimp only
      split
      next hid => rw [one x hx y hy hid]; rfl
      · rfl

theorem rising_map_ids {f : Showing → Showing} (hf : ∀ x, (f x).id = x.id) {l : List Showing} (h : Rising (l.map Showing.id)) :
    Rising ((l.map f).map Showing.id) := by
  have ids : (l.map f).map Showing.id = l.map Showing.id := by
    rw [List.map_map]
    exact List.map_congr_left fun x _ => hf x
  rw [ids]
  exact h

theorem foldl_recomputeBand_showings (source : Nat → Source) {ids : List Nat} (once : ids.Nodup) (hs : Rising (s.showings.map Showing.id)) :
    (ids.foldl (recomputeBand source) s).showings = s.showings.map fun y => if y.id ∈ ids then y.banded s.figure else y := by
  induction ids generalizing s with
  | nil => simp
  | cons i l ih =>
    obtain ⟨notHere, once⟩ := List.nodup_cons.1 once
    have first := recomputeBand_showings source hs i
    have figure : (recomputeBand source s i).figure = s.figure := (recomputeBand_work source s i).frame.figure
    have keeps : ∀ y : Showing, (if y.id = i then y.banded s.figure else y).id = y.id := fun y => by split <;> rfl
    rw [List.foldl_cons, ih once (by rw [first]; exact rising_map_ids keeps hs), first, figure, List.map_map]
    refine List.map_congr_left fun y _ => ?_
    simp only [Function.comp_apply, keeps]
    by_cases e : y.id = i
    · rw [if_neg (by rw [e]; exact notHere), if_pos e, if_pos (by simp [e])]
    · simp [e]

theorem boardBands_only (source : Nat → Source) (g : FigureSettings) (s : State) : OnlyShowings { s with figure := g } (boardBands source g s) := by
  unfold boardBands
  dsimp only
  split
  · exact foldl_rel OnlyShowings .refl .trans _ (fun u i => recomputeBand_only source u i) _ _
  · exact .refl _

theorem boardBands_showings (source : Nat → Source) (g : FigureSettings) (hs : Rising (s.showings.map Showing.id)) :
    (boardBands source g s).showings = s.showings.map fun x => if s.figure.bandsMove g then x.banded g else x := by
  unfold boardBands
  dsimp only
  split
  · rw [foldl_recomputeBand_showings source (s := { s with figure := g }) (hs.imp Nat.ne_of_lt) hs]
    exact List.map_congr_left fun x hx => if_pos (List.mem_map_of_mem hx)
  · exact (List.map_id _).symm

/-! ### The records judged by new settings -/

/-- A record of which the band alone may move. -/
def Showing.Banded (x y : Showing) : Prop := y = { x with band := y.band }

/-- What a change of the lifecycle settings makes of a record that is not freed (R39, R46). -/
structure Showing.BoardTo (life : LifeSettings) (m : Nat) (x y : Showing) : Prop where
  judged : x.JudgedTo life m True y
  tally : y.tally = x.tally
  pace : y.pace = if y.state.code ≥ 4 ∧ x.state.code < 4 then 0 else x.pace

theorem ite_ne {α : Type} {c : Prop} [Decidable c] {a b z : α} (ha : a ≠ z) (hb : b ≠ z) : (if c then a else b) ≠ z := by
  split <;> assumption

/-- No transition that is due cancels a showing. -/
theorem restAt_not_cancelled {x : Showing} (h : x.state ≠ .cancelled) : x.restAt life m ≠ .cancelled :=
  ite_ne (by decide) (ite_ne (by decide) (ite_ne (by decide) (ite_ne (by decide) (ite_ne (by decide) h))))

/-- A record closes where it comes from a state before CLOSED into one after it. -/
theorem Showing.closesAt_codes {x : Showing} : x.ClosesAt life m ↔ (x.restAt life m).code ≥ 4 ∧ x.state.code < 4 := by
  have early : x.state.code < 4 ↔ x.state = .planned ∨ x.state = .onSale ∨ x.state = .seating ∨ x.state = .started := by
    cases x.state <;> decide
  unfold Showing.ClosesAt
  rw [early, and_comm]
  refine and_congr_left fun before => ?_
  have live : x.state ≠ .cancelled := by rcases before with e | e | e | e <;> rw [e] <;> decide
  have open' := restAt_not_cancelled (life := life) (m := m) live
  cases hr : x.restAt life m <;> simp_all [ShowState.code]

theorem Showing.Judged.boardTo {x y : Showing} (h : x.Judged life m y) : x.BoardTo life m y where
  judged := ⟨by rw [h.record], h.rest, fun _ c => (h.closed c).2, fun _ c => (h.calm c).1⟩
  tally := by rw [h.record]
  pace := by
    have state : y.state = x.restAt life m := by rw [h.record]
    rw [state]
    by_cases c : x.ClosesAt life m
    · rw [if_pos (closesAt_codes.1 c), (h.closed c).1]
    · rw [if_neg fun k => c (closesAt_codes.2 k), (h.calm c).2.1]

theorem Showing.Banded.figures {x y : Showing} (h : x.Banded y) : y = { x with
    held := y.held, tally := y.tally, pace := y.pace, band := y.band, fast := y.fast, oversold := y.oversold } := by
  rw [h]

theorem Showing.Banded.kept {x y : Showing} (h : x.Banded y) :
    y.state = x.state ∧ y.held = x.held ∧ y.tally = x.tally ∧ y.pace = x.pace := by
  rw [h]
  exact ⟨rfl, rfl, rfl, rfl⟩

/-- A band moved after the judging. -/
theorem Showing.BoardTo.bandedAfter {x y z : Showing} (h : x.BoardTo life m y) (k : y.Banded z) : x.BoardTo life m z := by
  obtain ⟨state, held, tally, pace⟩ := k.kept
  refine ⟨⟨?_, (due_figures k.figures).trans h.judged.rest, fun q c => held.trans (h.judged.closed q c),
    fun q c => held.trans (h.judged.held q c)⟩, tally.trans h.tally, by rw [state, pace]; exact h.pace⟩
  rw [k, h.judged.record]

/-- A band moved before the judging. -/
theorem Showing.BoardTo.bandedBefore {x y z : Showing} (k : x.Banded y) (h : y.BoardTo life m z) : x.BoardTo life m z := by
  obtain ⟨state, held, tally, pace⟩ := k.kept
  obtain ⟨rest, purge, -, closes⟩ := judgedAt_figures (life := life) (m := m) k.figures
  have record := h.judged.record
  rw [rest, purge] at record
  refine ⟨⟨?_, h.judged.rest, fun q c => h.judged.closed q (closes.2 c), fun q c => ?_⟩, h.tally.trans tally, ?_⟩
  · rw [record, k]
  · rw [← held]
    exact h.judged.held q fun d => c (closes.1 d)
  · rw [← state, ← pace]
    exact h.pace

/-! ### The purge deadlines and the judging -/

/-- R46: the purge deadline of a record that stands in ENDED or CANCELLED moves with G. -/
theorem movePurge_eq (old new : Nat) (x : Showing) : movePurge old new x = { x with
    purge := if x.state = .ended ∨ x.state = .cancelled then x.purge.map fun d => min 1048575 (d + new - old) else x.purge } := by
  unfold movePurge
  split
  next h => rw [if_pos (.inl h)]; rfl
  next h => rw [if_pos (.inr h)]; rfl
  all_goals
    next h => rw [if_neg (by rw [h]; decide)]

theorem movePurge_banded {old new : Nat} {x y : Showing} (h : x.Banded y) : (movePurge old new x).Banded (movePurge old new y) := by
  unfold Showing.Banded
  rw [movePurge_eq, movePurge_eq, h]

theorem boardLifecycle_shown {l : LifeSettings} (hl : l ≠ s.life) (hs : s.SeatedBut noSpare) :
    Shown (fun x => (movePurge s.life.linger l.linger x).FreedAt l s.cal.m)
      (fun x y => (movePurge s.life.linger l.linger x).BoardTo l s.cal.m y) s (boardLifecycle l s) := by
  have keep : ∀ x, (movePurge s.life.linger l.linger x).id = x.id ∧ (movePurge s.life.linger l.linger x).held = x.held := fun x => by
    rw [movePurge_eq]
    exact ⟨rfl, rfl⟩
  have moved : Shown noShowing (fun x y => y = movePurge s.life.linger l.linger x) s
      { s with life := l, showings := s.showings.map (movePurge s.life.linger l.linger) } := .map (fun x => (keep x).1) rfl
  have seated : State.SeatedBut noSpare { s with life := l, showings := s.showings.map (movePurge s.life.linger l.linger) } :=
    hs.map (f := movePurge s.life.linger l.linger) rfl rfl (fun x _ => keep x) fun x _ hst => by rw [movePurge_eq]; exact hst
  have judged := judgeAll_shown seated
  unfold boardLifecycle
  rw [if_neg hl]
  exact moved.before judged (fun x y e => by rw [e]) fun x y z e k => e ▸ k.boardTo

theorem boardBands_shown (source : Nat → Source) (g : FigureSettings) (hs : Rising (s.showings.map Showing.id)) :
    Shown noShowing Showing.Banded s (boardBands source g s) := by
  have moved : Shown noShowing (fun x y => y = if s.figure.bandsMove g then x.banded g else x) s (boardBands source g s) :=
    .map (fun x => by split <;> rfl) (boardBands_showings source g hs)
  refine moved.after (.refl (R := Showing.Banded) (fun _ => rfl) _) fun x y z e k => ?_
  rw [k, e]
  split <;> rfl

/-- The showings at a SET BOARD that changes the lifecycle settings, whichever owner is taken first (R39, R46, R96). -/
theorem boardShowings_shown {l : LifeSettings} (hl : l ≠ s.life) (g : FigureSettings) (hs : s.SeatedBut noSpare) :
    Shown (fun x => (movePurge s.life.linger l.linger x).FreedAt l s.cal.m)
      (fun x y => (movePurge s.life.linger l.linger x).BoardTo l s.cal.m y) s (boardShowings l g s) := by
  have joined : ∀ (first : Bool) (r : List (Source × EventRecord)) (u : State), (joinBands first r u).showings = u.showings :=
    fun first r u => (joinBands_aside first r u).showings
  have bandsLast : ∀ (source : Nat → Source) (u : State), u.life = s.life → u.cal = s.cal → u.showings = s.showings → u.holds = s.holds →
      ∀ v : State, v.showings = (boardLifecycle l u).showings → Shown (fun x => (movePurge s.life.linger l.linger x).FreedAt l s.cal.m)
        (fun x y => (movePurge s.life.linger l.linger x).BoardTo l s.cal.m y) s (boardBands source g v) :=
    fun source u life cal shows holds v hv => by
      have seated : u.SeatedBut noSpare := hs.frame shows holds
      have judged := boardLifecycle_shown (s := u) (life ▸ hl) seated
      rw [life, cal] at judged
      have kept : Rising (v.showings.map Showing.id) := hv ▸ (boardLifecycle_seated l seated).showings
      exact (judged.congr shows.symm hv).after (boardBands_shown source g kept) fun x y z => .bandedAfter
  have bandsFirst : ∀ (source : Nat → Source) (u : State), u.life = s.life → u.cal = s.cal → u.figure = s.figure → u.showings = s.showings →
      u.holds = s.holds → ∀ v : State, v.showings = (boardBands source g u).showings → v.holds = (boardBands source g u).holds →
      v.life = s.life → v.cal = s.cal → Shown (fun x => (movePurge s.life.linger l.linger x).FreedAt l s.cal.m)
        (fun x y => (movePurge s.life.linger l.linger x).BoardTo l s.cal.m y) s (boardLifecycle l v) :=
    fun source u life cal figure shows holds v hv hh life' cal' => by
      have seated : u.SeatedBut noSpare := hs.frame shows holds
      have banded := (boardBands_shown source g seated.showings).congr shows.symm hv
      have judged := boardLifecycle_shown (s := v) (life' ▸ hl) ((boardBands_seated source g seated).frame hv hh)
      rw [life', cal'] at judged
      exact banded.before judged (fun x y k => (judgedAt_figures (movePurge_banded k).figures).2.2.1) fun x y z k h =>
        .bandedBefore (movePurge_banded k) h
  unfold boardShowings
  dsimp only
  split
  · split
    · exact (bandsLast (s.bandSource l) { s with choice := s.choice + 1 } rfl rfl rfl rfl
        { boardLifecycle l { s with choice := s.choice + 1 } with outbox := [] } rfl).congr rfl (joined _ _ _)
    · have banded := boardBands_only (s.bandSource l) g { s with choice := s.choice + 1, outbox := [] }
      have judged := bandsFirst (s.bandSource l) { s with choice := s.choice + 1, outbox := [] } rfl rfl rfl rfl rfl
      generalize boardBands (s.bandSource l) g { s with choice := s.choice + 1, outbox := [] } = u at banded judged ⊢
      obtain ⟨xs, ob, only⟩ := banded
      exact (judged { u with outbox := s.outbox } rfl rfl (by rw [only]) (by rw [only])).congr rfl (joined _ _ _)
  · exact bandsLast _ s rfl rfl rfl rfl _ rfl

end Sys2Proof.Machine
end

section
/-! PROOFS about the settings of a SET BOARD (R13, R46, R77, R85, R157, R180) and the obligation about it. -/

namespace Sys2Proof.Machine

variable {s t u : State}

/-! ### The settings stored -/

/-- R85: F2 stays above F1 and at most 999. -/
theorem boardF2_eq (o : Option Half) {f1 old : Nat} (h1 : f1 ≤ 998) (h2 : old ≤ 999) :
    boardF2 o f1 old = max (f1 + 1) (min 999 (o.elim old BitVec.toNat)) := by
  cases o with
  | none =>
    show (if old ≤ f1 then f1 + 1 else old) = max (f1 + 1) (min 999 old)
    split <;> omega
  | some x => rfl

/-- R157: the frame period is taken down to a step of 50. -/
theorem boardFrame_eq (o : Option Half) {old : Nat} (h : old % 50 = 0) :
    boardFrame o old = carried o 200 1000 old - carried o 200 1000 old % 50 := by
  cases o with
  | none =>
    show old = old - old % 50
    omega
  | some x =>
    show clamp 200 1000 x.toNat / 50 * 50 = clamp 200 1000 x.toNat - clamp 200 1000 x.toNat % 50
    omega

theorem boardWatch_sales (o : Option Half) (w : Watch) : (boardWatch o w).sales = w.sales := by
  unfold boardWatch
  cases w.sales <;> simp

theorem pulled_iff {w : Nat} (o : Option (BitVec w)) {lo hi : Nat} (h : lo ≤ hi) :
    pulled o lo hi = true ↔ ∃ x, o = some x ∧ (x.toNat < lo ∨ hi < x.toNat) := by
  cases o with
  | none => simp [pulled, ifPresent]
  | some x =>
    show (clamp lo hi x.toNat != x.toNat) = true ↔ _
    rw [clamp_eq, clamp_ne h, decide_eq_true_iff]
    simp

theorem boardClamped_iff (f : BoardFields) (s : State) : boardClamped f s = true ↔
    (∃ x, f.h0 = some x ∧ (x.toNat < 0 ∨ 23 < x.toNat)) ∨ (∃ x, f.openMin = some x ∧ (x.toNat < 0 ∨ 1439 < x.toNat)) ∨
    (∃ x, f.closeMin = some x ∧ (x.toNat < 0 ∨ 1439 < x.toNat)) ∨ (∃ x, f.lead = some x ∧ (x.toNat < 0 ∨ 60 < x.toNat)) ∨
    (∃ x, f.late = some x ∧ (x.toNat < 0 ∨ 30 < x.toNat)) ∨ (∃ x, f.linger = some x ∧ (x.toNat < 1 ∨ 60 < x.toNat)) ∨
    (∃ x, f.f1 = some x ∧ (x.toNat < 1 ∨ 998 < x.toNat)) ∨ f.f2.elim s.figure.f2 BitVec.toNat ≠ (boardFigure f s.figure).f2 ∨
    (∃ x, f.w = some x ∧ (x.toNat < 0 ∨ 100 < x.toNat)) ∨ (∃ x, f.k = some x ∧ (x.toNat < 0 ∨ 50 < x.toNat)) ∨
    (∃ x, f.dc = some x ∧ (x.toNat < 9 ∨ 999 < x.toNat)) ∨ (∃ x, f.watch = some x ∧ (x.toNat < 5 ∨ 300 < x.toNat)) ∨
    ∃ x, f.frame = some x ∧ x.toNat ≠ boardFrame f.frame s.framePeriod := by
  have frame : ifPresent (fun x : Half => boardFrame (some x) 0 != x.toNat) f.frame = true ↔
      ∃ x, f.frame = some x ∧ x.toNat ≠ boardFrame f.frame s.framePeriod := by
    cases f.frame with
    | none => simp [ifPresent]
    | some x =>
      show (boardFrame (some x) 0 != x.toNat) = true ↔ _
      have same : boardFrame (some x) s.framePeriod = boardFrame (some x) 0 := rfl
      rw [bne_iff_ne]
      constructor
      · exact fun h => ⟨x, rfl, by rw [same]; exact h.symm⟩
      · rintro ⟨y, e, h⟩
        obtain rfl := Option.some.inj e
        rw [same] at h
        exact h.symm
  unfold boardClamped
  simp only [Bool.or_eq_true, frame, bne_iff_ne, or_assoc]
  rw [pulled_iff f.h0 (by decide), pulled_iff f.openMin (by decide), pulled_iff f.closeMin (by decide), pulled_iff f.lead (by decide),
    pulled_iff f.late (by decide), pulled_iff f.linger (by decide), pulled_iff f.f1 (by decide), pulled_iff f.w (by decide),
    pulled_iff f.k (by decide), pulled_iff f.dc (by decide), pulled_iff f.watch (by decide), ne_comm (a := f.f2.elim _ _)]

/-! ### The calendar's part -/

/-- The calendar after a SET BOARD (R13). -/
def Calendar.boarded (f : BoardFields) (c : Calendar) : Calendar :=
  if (storeCalendar f c).openMin = c.openMin ∧ (storeCalendar f c).closeMin = c.closeMin then storeCalendar f c
  else { storeCalendar f c with hush := (storeCalendar f c).hoursHush, wake := false }

theorem boardCalendar_only (f : BoardFields) (s : State) : ∃ cs ps qs ob, boardCalendar f s = { s with
    cal := s.cal.boarded f, carousels := cs, plays := ps, panels := qs, outbox := ob } := by
  unfold boardCalendar Calendar.boarded
  dsimp only
  split
  · exact ⟨_, _, _, _, rfl⟩
  · obtain ⟨cs, ps, qs, ob, e⟩ := setHushWake_only (storeCalendar f s.cal).hoursHush false { s with cal := storeCalendar f s.cal }
    exact ⟨cs, ps, qs, ob, e⟩

/-- What a SET BOARD writes of the calendar's settings (R13). -/
theorem boarded_stored (f : BoardFields) (c : Calendar) :
    (c.boarded f).h0 = carried f.h0 0 23 c.h0 ∧ (c.boarded f).openMin = carried f.openMin 0 1439 c.openMin ∧
    (c.boarded f).closeMin = carried f.closeMin 0 1439 c.closeMin ∧
    ((c.boarded f).year, (c.boarded f).month, (c.boarded f).day, (c.boarded f).hour, (c.boarded f).minute, (c.boarded f).second,
      (c.boarded f).m) = (c.year, c.month, c.day, c.hour, c.minute, c.second, c.m) ∧
    (c.boarded f).clock = c.clock ∧ (c.boarded f).held = c.held ∧
    (c.boarded f).d0 =
      if (c.boarded f).h0 ≠ c.h0 ∧ c.clock = .running ∧ c.held = false then businessBase c.m (c.boarded f).h0 else c.d0 := by
  unfold Calendar.boarded
  split <;> exact ⟨rfl, rfl, rfl, rfl, rfl, rfl, rfl⟩

/-- HUSH and WAKE stand where the hours stand. -/
theorem boarded_sameHours {f : BoardFields} {c : Calendar} (h1 : (c.boarded f).openMin = c.openMin)
    (h2 : (c.boarded f).closeMin = c.closeMin) : (c.boarded f).hush = c.hush ∧ (c.boarded f).wake = c.wake := by
  obtain ⟨-, opened, closed, -⟩ := boarded_stored f c
  have same : (storeCalendar f c).openMin = c.openMin ∧ (storeCalendar f c).closeMin = c.closeMin := ⟨opened.symm.trans h1, closed.symm.trans h2⟩
  unfold Calendar.boarded
  rw [if_pos same]
  exact ⟨rfl, rfl⟩

/-- A change of the hours clears WAKE and sets HUSH from the wall minute (R13). -/
theorem boarded_newHours {f : BoardFields} {c : Calendar} (h : (c.boarded f).openMin ≠ c.openMin ∨ (c.boarded f).closeMin ≠ c.closeMin) :
    (c.boarded f).wake = false ∧ (c.boarded f).hush = if c.clock = .running then
      lobbyClosed (c.boarded f).openMin (c.boarded f).closeMin (if c.held then c.m % 1440 else c.wall) else c.hush := by
  obtain ⟨-, opened, closed, -⟩ := boarded_stored f c
  have moved : ¬ ((storeCalendar f c).openMin = c.openMin ∧ (storeCalendar f c).closeMin = c.closeMin) := fun k =>
    h.elim (fun n => n (opened.trans k.1)) fun n => n (closed.trans k.2)
  rw [opened, closed]
  unfold Calendar.boarded
  rw [if_neg moved]
  refine ⟨rfl, ?_⟩
  show (storeCalendar f c).hoursHush = _
  unfold Calendar.hoursHush
  have clock : (storeCalendar f c).clock = c.clock := rfl
  rw [clock]
  cases c.clock <;> rfl

/-! ### SET BOARD carried out -/

/-- The board after a SET BOARD, before the arrival ends (R180). -/
def State.boarded (f : BoardFields) (s : State) : State :=
  { boardShowings (boardLife f s.life) (boardFigure f s.figure) (boardCalendar f s) with
    watch := boardWatch f.watch s.watch, framePeriod := boardFrame f.frame s.framePeriod }

theorem setBoard_done {f : BoardFields} (h : f.spare = 0) (s : State) :
    setBoard f s = (done (boardClamped f s) (s.boarded f).settingsData, s.boarded f) := by
  obtain ⟨cs, ps, qs, ob, calendar⟩ := boardCalendar_only f s
  have work := (boardShowings_work (boardLife f s.life) (boardFigure f s.figure) (boardCalendar f s)).frame
  have watch : (boardShowings (boardLife f s.life) (boardFigure f s.figure) (boardCalendar f s)).watch = s.watch := by
    rw [work.watch, calendar]
  have period : (boardShowings (boardLife f s.life) (boardFigure f s.figure) (boardCalendar f s)).framePeriod = s.framePeriod := by
    rw [work.framePeriod, calendar]
  unfold setBoard State.boarded
  rw [if_neg (fun k => k h)]
  dsimp only
  rw [watch, period]

theorem boarded_frame (f : BoardFields) (s : State) : DayFrame { s with
    cal := s.cal.boarded f, life := boardLife f s.life, figure := boardFigure f s.figure, watch := boardWatch f.watch s.watch
    framePeriod := boardFrame f.frame s.framePeriod } (s.boarded f) := by
  obtain ⟨cs, ps, qs, ob, calendar⟩ := boardCalendar_only f s
  have work := (boardShowings_work (boardLife f s.life) (boardFigure f s.figure) (boardCalendar f s)).frame
  unfold State.boarded
  generalize boardShowings (boardLife f s.life) (boardFigure f s.figure) (boardCalendar f s) = v at work ⊢
  unfold DayFrame at work ⊢
  rw [work, calendar]

/-- The showings where the lifecycle settings change (R39, R46). -/
theorem boarded_shown {f : BoardFields} (hl : boardLife f s.life ≠ s.life) (hs : s.SeatedBut noSpare) :
    Shown (fun x => (movePurge s.life.linger (boardLife f s.life).linger x).FreedAt (boardLife f s.life) s.cal.m)
      (fun x y => (movePurge s.life.linger (boardLife f s.life).linger x).BoardTo (boardLife f s.life) s.cal.m y) s (s.boarded f) := by
  obtain ⟨cs, ps, qs, ob, calendar⟩ := boardCalendar_only f s
  obtain ⟨l, hl'⟩ : ∃ l, l = boardLife f s.life := ⟨_, rfl⟩
  obtain ⟨-, -, -, stamp, -⟩ := boarded_stored f s.cal
  have m : (s.cal.boarded f).m = s.cal.m := by
    injection stamp with _ stamp
    injection stamp with _ stamp
    injection stamp with _ stamp
    injection stamp with _ stamp
    injection stamp with _ stamp
    injection stamp
  have shown := boardShowings_shown (s := boardCalendar f s) (l := l) (by rw [calendar, hl']; exact hl) (boardFigure f s.figure)
    (hs.frame (by rw [calendar]) (by rw [calendar]))
  have life : (boardCalendar f s).life = s.life := by rw [calendar]
  have cal : (boardCalendar f s).cal.m = s.cal.m := by rw [calendar]; exact m
  rw [life, cal] at shown
  unfold State.boarded
  rw [← hl']
  exact shown.congr (by rw [calendar]) rfl

/-- The showings where they do not: the bands alone are recomputed (R96). -/
theorem boarded_bands {f : BoardFields} (hl : boardLife f s.life = s.life) (hs : Rising (s.showings.map Showing.id)) :
    (s.boarded f).holds = s.holds ∧ (s.boarded f).notices = s.notices ∧ (s.boarded f).journalBox = s.journalBox ∧
    (s.boarded f).showings = s.showings.map fun x =>
      if s.figure.bandsMove (boardFigure f s.figure) then x.banded (boardFigure f s.figure) else x := by
  obtain ⟨cs, ps, qs, ob, calendar⟩ := boardCalendar_only f s
  have life : (boardCalendar f s).life = s.life := by rw [calendar]
  have form : ∃ source, boardShowings (boardLife f s.life) (boardFigure f s.figure) (boardCalendar f s) =
      boardBands source (boardFigure f s.figure) (boardCalendar f s) := by
    unfold boardShowings boardLifecycle
    dsimp only
    rw [life, hl, if_neg (fun k => k.1 rfl), if_pos rfl]
    exact ⟨_, rfl⟩
  obtain ⟨source, form⟩ := form
  have shows := boardBands_showings source (boardFigure f s.figure) (s := boardCalendar f s) (by rw [calendar]; exact hs)
  obtain ⟨xs, ob', only⟩ := boardBands_only source (boardFigure f s.figure) (boardCalendar f s)
  unfold State.boarded
  rw [form]
  generalize boardBands source (boardFigure f s.figure) (boardCalendar f s) = v at shows only ⊢
  have figure : (boardCalendar f s).figure = s.figure := by rw [calendar]
  have showings : (boardCalendar f s).showings = s.showings := by rw [calendar]
  rw [figure, showings] at shows
  exact ⟨by rw [only, calendar], by rw [only, calendar], by rw [only, calendar], shows⟩

/-- R96: the bands move where F1, F2, W or K does. -/
theorem bandsMove_iff (g h : FigureSettings) : g.bandsMove h = true ↔ ¬ (h.f1, h.f2, h.w, h.k) = (g.f1, g.f2, g.w, g.k) := by
  unfold FigureSettings.bandsMove
  simp only [Bool.or_eq_true, bne_iff_ne, Prod.mk.injEq]
  omega

/-! ### One that carries nothing -/

theorem optBytes_length {α : Type} {f : α → List Byte} (h : ∀ x, 1 ≤ (f x).length) {o : Option α} (ho : (Wire.optBytes f o).length = 0) :
    o = none := by
  cases o with
  | none => rfl
  | some x => exact absurd ho (Nat.one_le_iff_ne_zero.1 (h x))

/-- A SET BOARD that carries nothing. -/
def noFields (spare : BitVec 3) : BoardFields where
  h0 := none
  openMin := none
  closeMin := none
  lead := none
  late := none
  linger := none
  f1 := none
  f2 := none
  w := none
  k := none
  dc := none
  watch := none
  frame := none
  spare := spare

theorem boardBytes_empty {f : BoardFields} (h : Wire.boardBytes f = [0, 0]) : f = noFields f.spare := by
  have total := congrArg List.length h
  unfold Wire.boardBytes at total
  simp only [List.length_append, Wire.halfBytes, List.length_cons, List.length_nil] at total
  have byte : ∀ x, 1 ≤ (Wire.byteBytes x).length := fun _ => Nat.le_refl 1
  have half : ∀ x, 1 ≤ (Wire.halfBytes x).length := fun _ => Nat.le_succ 1
  obtain ⟨h0, openMin, closeMin, lead, late, linger, f1, f2, w, k, dc, watch, frame, spare⟩ := f
  dsimp only at total
  obtain rfl := optBytes_length byte (o := h0) (by omega)
  obtain rfl := optBytes_length half (o := openMin) (by omega)
  obtain rfl := optBytes_length half (o := closeMin) (by omega)
  obtain rfl := optBytes_length byte (o := lead) (by omega)
  obtain rfl := optBytes_length byte (o := late) (by omega)
  obtain rfl := optBytes_length byte (o := linger) (by omega)
  obtain rfl := optBytes_length half (o := f1) (by omega)
  obtain rfl := optBytes_length half (o := f2) (by omega)
  obtain rfl := optBytes_length byte (o := w) (by omega)
  obtain rfl := optBytes_length byte (o := k) (by omega)
  obtain rfl := optBytes_length half (o := dc) (by omega)
  obtain rfl := optBytes_length half (o := watch) (by omega)
  obtain rfl := optBytes_length half (o := frame) (by omega)
  rfl

theorem boardWatch_none (w : Watch) : boardWatch none w = w := by
  obtain ⟨sales, count, period⟩ := w
  cases sales <;> simp [boardWatch, carried]

theorem boardBands_same (source : Nat → Source) (s : State) : boardBands source s.figure s = s := by
  unfold boardBands
  exact if_neg (by simp [FigureSettings.bandsMove])

theorem boarded_nothing (b : BitVec 3) (hg : s.Ranged) : boardClamped (noFields b) s = false ∧ s.boarded (noFields b) = s := by
  have f2 : boardF2 none s.figure.f1 s.figure.f2 = s.figure.f2 := if_neg (Nat.not_le.2 hg.f2.1)
  have figure : boardFigure (noFields b) s.figure = s.figure := by
    show { f1 := s.figure.f1, f2 := boardF2 none s.figure.f1 s.figure.f2, w := s.figure.w, k := s.figure.k, dc := s.figure.dc } = s.figure
    rw [f2]
  have life : boardLife (noFields b) s.life = s.life := rfl
  have calendar : storeCalendar (noFields b) s.cal = s.cal := by
    unfold storeCalendar
    dsimp only
    rw [if_neg (fun k => k.1 rfl)]
    rfl
  have written : boardCalendar (noFields b) s = s := by
    unfold boardCalendar
    dsimp only
    rw [calendar, if_pos ⟨rfl, rfl⟩]
  have shows : boardShowings s.life s.figure s = s := by
    unfold boardShowings boardLifecycle
    dsimp only
    rw [if_neg (fun k => k.1 rfl), if_pos rfl]
    exact boardBands_same _ s
  constructor
  · rw [Bool.eq_false_iff]
    intro clamped
    rw [boardClamped_iff, figure] at clamped
    simp [noFields] at clamped
  · unfold State.boarded
    rw [written, figure, life, shows, show (noFields b).watch = none from rfl, boardWatch_none]
    rfl

/-! ### The obligation -/

/-- Settles O18: the settings by `boarded_stored`, the showings by `boarded_bands` and `boarded_shown`. -/
theorem setBoardStoresTheSettings : Obligations.SetBoardStoresTheSettings := by
  unfold Obligations.SetBoardStoresTheSettings
  intro t f s ht hg spare keep out n
  have settled := ht.settled
  obtain ⟨len, hlen⟩ : ∃ len, len = n := ⟨_, rfl⟩
  rw [← hlen]
  have body := setBoard_done spare (heard t len s)
  have quiet := heard_settled t len settled
  have cal := heard_cal t len settled
  have life := heard_life t len settled
  have figure := heard_figure t len settled
  have period := heard_framePeriod t len settled
  have watch : (heard t len s).watch = s.watch := by rw [heard_unsold len ht (by decide)]; rfl
  have frame := boarded_frame f (heard t len s)
  rw [cal, life, figure, period, watch] at frame
  obtain ⟨j, q, c, beside, journal⟩ := settle_beside quiet ((heard t len s).boarded f)
  obtain ⟨u, hu⟩ : ∃ u, u = settle ((heard t len s).boarded f) := ⟨_, rfl⟩
  have data : u.settingsData = ((heard t len s).boarded f).settingsData := by rw [hu]; rfl
  have run := request_ends ht len 12 body
  rw [← hu, ← data] at run
  have stored : u.cal = s.cal.boarded f ∧ u.life = boardLife f s.life ∧ u.figure = boardFigure f s.figure ∧
      u.watch = boardWatch f.watch s.watch ∧ u.framePeriod = boardFrame f.frame s.framePeriod := by
    rw [hu, beside, frame]
    exact ⟨rfl, rfl, rfl, rfl, rfl⟩
  obtain ⟨ucal, ulife, ufigure, uwatch, uperiod⟩ := stored
  obtain ⟨h0, openMin, closeMin, stamp, clock, held, d0⟩ := boarded_stored f s.cal
  have f1 : u.figure.f1 ≤ 998 := by
    rw [ufigure]
    exact (carried_bounds f.f1 (by decide) hg.f1).2
  have f2 : u.figure.f2 = max (u.figure.f1 + 1) (min 999 (f.f2.elim s.figure.f2 BitVec.toNat)) := by
    rw [ufigure] at f1 ⊢
    exact boardF2_eq f.f2 f1 hg.f2.2
  have sales : u.watch.sales = s.watch.sales := by
    rw [uwatch]
    exact boardWatch_sales f.watch s.watch
  have step : u.framePeriod = carried f.frame 200 1000 s.framePeriod - carried f.frame 200 1000 s.framePeriod % 50 := by
    rw [uperiod]
    exact boardFrame_eq f.frame hg.frame.2.2
  have clamped := boardClamped_iff f (heard t len s)
  rw [figure, period, ← ufigure, ← uperiod] at clamped
  refine ⟨u, boardClamped f (heard t len s), by subst hlen; exact run, ?_, ?_, ?_, ulife, by rw [ufigure]; rfl, f2, by rw [ufigure]; rfl,
    by rw [ufigure]; rfl, by rw [ufigure]; rfl, by rw [uwatch]; exact boardWatch_period _ _, sales, step, ?_, ?_, ?_, ?_, ?_, ?_,
    fun hs hl => ?bands, fun hs hl => ?judged, clamped, ?frame, fun h => ?nothing⟩
  case bands =>
    have showings := heard_showings t len settled
    obtain ⟨holds, notices, box, shows⟩ := boarded_bands (s := heard t len s) (f := f) (by rw [life, ← ulife, hl])
      (by rw [showings]; exact hs.showings)
    refine ⟨?_, ?_, ?_, ?_⟩
    · rw [hu]
      exact holds.trans (heard_holds t len settled)
    · rw [hu, beside, journal (box.trans quiet.2), frame]
      exact heard_journal t len settled
    · rw [hu]
      exact notices.trans (heard_notices t len settled)
    · rw [hu]
      refine shows.trans ?_
      rw [showings, figure, ← hu, ← ufigure]
      refine List.map_congr_left fun x _ => ?_
      have moves := bandsMove_iff s.figure u.figure
      by_cases same : (u.figure.f1, u.figure.f2, u.figure.w, u.figure.k) = (s.figure.f1, s.figure.f2, s.figure.w, s.figure.k)
      · rw [if_pos same, if_neg fun k => moves.1 k same]
      · rw [if_neg same, if_pos (moves.2 same)]
        rfl
  case judged =>
    have seated : (heard t len s).SeatedBut noSpare :=
      ((seatedBut_none s).2 hs).frame (heard_showings t len settled) (heard_holds t len settled)
    have shown := boarded_shown (s := heard t len s) (f := f) (by rw [life, ← ulife]; exact hl) seated
    rw [life, cal, ← ulife] at shown
    obtain ⟨freed, live, -⟩ := (shown.congr (s' := s) (t' := u) (heard_showings t len settled).symm (by rw [hu]; rfl)).table hs.showings
    intro x hx
    have moved := movePurge_eq s.life.linger u.life.linger x
    have gone := freed x hx
    have stays := live x hx
    rw [moved] at gone stays
    refine ⟨gone, fun k => ?_⟩
    obtain ⟨y, hy, judged, tally, pace⟩ := stays k
    exact ⟨y, hy, judged, tally, pace⟩
  case frame => rw [hu, beside, frame]
  case nothing =>
    have ranged : (heard t len s).Ranged := by
      exact ⟨cal ▸ hg.h0, cal ▸ hg.hours, life ▸ hg.lead, life ▸ hg.late, life ▸ hg.linger, figure ▸ hg.f1, figure ▸ hg.f2, figure ▸ hg.w,
        figure ▸ hg.k, figure ▸ hg.dc, watch ▸ hg.watch, period ▸ hg.frame⟩
    obtain ⟨unclamped, still⟩ := boarded_nothing f.spare ranged
    rw [← boardBytes_empty h] at unclamped still
    refine ⟨unclamped, ?_⟩
    rw [hu, still]
    exact settle_settled quiet
  all_goals rw [ucal]
  · exact h0
  · exact openMin
  · exact closeMin
  · exact stamp
  · exact clock
  · exact held
  · exact d0
  · exact boarded_sameHours
  · exact boarded_newHours

end Sys2Proof.Machine
end
